-- ==== Sys2Proof/Word.lean ====
section
/-! DEFINITION. The word and byte types of the CAN frame packetizer block (R7, R9): the register
bus carries 32-bit words, a packet is a sequence of 8-bit bytes. -/

namespace Sys2Proof

/-- One register of the bus window: 32 bits (R14, R22). -/
abbrev Word := BitVec 32

/-- One byte of a packet or of a frame's payload (R9). -/
abbrev Byte := BitVec 8

/-- A radio packet: its bytes in index order; the source's `size` is the length (R9). The bound
`length ≤ MAXPAY` is part of the machine's invariant, not of the type. -/
abbrev Packet := List Byte

end Sys2Proof
end

