-- ==== Sys2Proof/Config.lean ====
section
/-! DEFINITION. What an implementation or the environment fixes: the parameters of R6, the types of
what the environment may do (R5, R57, R87, R135), and the free values: constants with no body, so
that nothing in Lean can tell what the environment will choose. R6's fixed values stand as numerals
where they are used: MAXPAY = 32, STATW = 32, ID_STD_MAX = 0x7FF, ID_EXT_MAX = 0x1FFFFFFF,
DLC_MAX = 8. -/

namespace Sys2Proof.Config

/-- The implementation parameters R6 leaves open, but for `NPORT`, which is the number of port
records a state holds. They are constants of one block; a state carries them (log entry 1), so a
statement about every state is a statement about every choice of them. -/
structure Params where
  /-- `QCAP`: the capacity of each FIFO, in packets. -/
  qcap : Nat
  /-- `BASE`: the bus address of the register window. -/
  base : Nat
deriving DecidableEq, Repr

/-- The parameters of `State.reset`: `QCAP` at R6's default; `BASE` is OPEN and stands at 0
(DESIGN CHOICE, log entry 1). -/
def reference : Params := ⟨16, 0⟩

/-- R6's default `NPORT`. -/
def referencePorts : Nat := 2

/-- An answer of the radio to one request (R86). -/
inductive Answer where
  /-- PROBE's `ok`. -/
  | probe (ok : Bool)
  /-- CLEAR_STATUS's `flags`: bit 0 RX_DR, bit 1 MAX_RT, bit 2 TX_DS. -/
  | flags (f : BitVec 3)
  /-- RX_PENDING's `count`. -/
  | count (n : BitVec 8)
  /-- READ's `(size, bytes)`. -/
  | packet (size : BitVec 6) (bytes : Vector Byte 32)
  /-- CHANNEL_AVAILABLE's `available`. -/
  | available (ok : Bool)
deriving DecidableEq, Repr

/-- What the environment and the scheduler may make happen next: a bus access of the host, an
event of the radio, a reset, or one atomic step of an agent of the block (R5, R43). `answer` is
R57's `env <REQ> -> <answer>`: it settles a later radio answer and moves no agent. -/
inductive Input where
  /-- `MemRead(addr, width)` by the host. -/
  | busRead (addr width : Nat)
  /-- `MemWrite(addr, width, v)` by the host. -/
  | busWrite (addr width : Nat) (v : Word)
  /-- The radio raises `irq`. -/
  | irq
  /-- `RST` is asserted. -/
  | rst
  /-- The engine is scheduled for one step. -/
  | engine
  /-- Port `p` is scheduled for one step. -/
  | port (p : Nat)
  /-- The environment settles the answer to the next radio request of that kind. -/
  | answer (a : Answer)
deriving DecidableEq, Repr, Inhabited

/-- FREE VALUE: what happens next when the state's list of inputs says nothing more (R5, R43). -/
opaque nextInput : Nat → Input

/-- FREE VALUE: the radio's answer to PROBE (R87, log entry 3). -/
opaque radioProbe : Nat → Bool

/-- FREE VALUE: the radio's answer to CLEAR_STATUS (R87). -/
opaque radioFlags : Nat → BitVec 3

/-- FREE VALUE: the radio's answer to RX_PENDING (R87). -/
opaque radioCount : Nat → BitVec 8

/-- FREE VALUE: the radio's answer to READ, sizes 33 to 63 among them (R87, R135). -/
opaque radioPacket : Nat → BitVec 6 × Vector Byte 32

/-- FREE VALUE: the radio's answer to CHANNEL_AVAILABLE (R87). -/
opaque radioAvailable : Nat → Bool

end Sys2Proof.Config
end

