-- ==== Sys2Proof/Syntax.lean ====
section
/-! DEFINITION. The instructions: one constructor per row of spec/opcode_table.json. The block has
no instruction set (R2); its table lists the eight command words a host writes to a port's CMD
register (R54), the two radio packet formats the codec reads (R50), and the eleven positions of the
engine's sequencer (R16). -/

namespace Sys2Proof

/-- The eight commands of R54, as `CMD_PEND` names them (R15). -/
inductive Command where
  | init | enable | send | read | reset | close | encode | decode
deriving DecidableEq, Repr

/-- One row of spec/opcode_table.json, with the operands it needs. A command's other operands are
the port's operand registers, so its only operand here is the port `p` whose CMD register is
written. A packet is read for a port `p`; `dlc` is byte 0 without the extended flag and `body`
every byte after byte 0, so the packet's size is `1 + body.length`. -/
inductive Instr where
  /-- INIT (R109). -/
  | init (p : Nat)
  /-- ENABLE (R110). -/
  | enable (p : Nat)
  /-- SEND (R111). -/
  | send (p : Nat)
  /-- READ (R112). -/
  | read (p : Nat)
  /-- RESET (R113). -/
  | reset (p : Nat)
  /-- CLOSE (R115). -/
  | close (p : Nat)
  /-- ENCODE (R116). -/
  | encode (p : Nat)
  /-- DECODE (R117). -/
  | decode (p : Nat)
  /-- PKT_STD: a packet in the standard format, read for port `p` (R50, R65). -/
  | pktStd (p : Nat) (dlc : BitVec 7) (body : List Byte)
  /-- PKT_EXT: a packet in the extended format, read for port `p` (R50, R65). -/
  | pktExt (p : Nat) (dlc : BitVec 7) (body : List Byte)
  /-- S0 IDLE (R92). -/
  | s0Idle
  /-- S1 STANDBY (R93). -/
  | s1Standby
  /-- S2 CLEAR (R94). -/
  | s2Clear
  /-- S3 LISTEN (R95). -/
  | s3Listen
  /-- S4 POLL (R96). -/
  | s4Poll
  /-- S5 READ (R97). -/
  | s5Read
  /-- S6 MAXRT (R98). -/
  | s6MaxRt
  /-- S7 TXDS (R99). -/
  | s7TxDs
  /-- S8 CHAN (R100). -/
  | s8Chan
  /-- S9 WRITE (R101). -/
  | s9Write
  /-- S10 YIELD (R102). -/
  | s10Yield
deriving DecidableEq, Repr

/-- The instruction a command stands for on port `p` (R54). -/
def Command.instr (p : Nat) : Command → Instr
  | .init => .init p
  | .enable => .enable p
  | .send => .send p
  | .read => .read p
  | .reset => .reset p
  | .close => .close p
  | .encode => .encode p
  | .decode => .decode p

end Sys2Proof
end

