-- ==== Sys2Proof/WellFormed.lean ====
section
/-! DEFINITION. Which instructions the spec admits as syntax: a port number some block can have
(R6), and a packet of 3 to 32 bytes, the sizes for which the format of R50 can be read (R51, R76). -/

namespace Sys2Proof

/-- Port numbers run from 0 to NPORT - 1, and NPORT is at most 15 (R6, R132). -/
def portInRange (p : Nat) : Bool := decide (p < 15)

/-- "no encoding can be valid below" size 3 (R51): byte 0 and at least two more. -/
def longEnough (body : List Byte) : Bool := decide (3 ≤ 1 + body.length)

/-- A packet is at most MAXPAY = 32 bytes (R6, R9). -/
def shortEnough (body : List Byte) : Bool := decide (1 + body.length ≤ 32)

/-- The well-formed instructions. -/
def Instr.wellFormed : Instr → Bool
  | .init p | .enable p | .send p | .read p | .reset p | .close p | .encode p | .decode p =>
      portInRange p
  | .pktStd p _ body | .pktExt p _ body => portInRange p && longEnough body && shortEnough body
  | .s0Idle | .s1Standby | .s2Clear | .s3Listen | .s4Poll | .s5Read | .s6MaxRt | .s7TxDs
  | .s8Chan | .s9Write | .s10Yield => true

end Sys2Proof
end

