-- ==== Sys2Proof/Decode.lean ====
section
/-! DEFINITION. Decoding and encoding (30_encoding.md). The table holds three disjoint encodings,
told apart by WHERE the bits stand, not by the bits: a word written to a port's CMD register, the
bytes of a radio packet, the 4-bit ENG_STEP (log entry 5). The decoder is total on each and rejects
by name. -/

namespace Sys2Proof

/-- Bits where the block finds them: a command word in port `p`'s CMD register (R54), a packet's
bytes read for port `p` (R50), a value of ENG_STEP (R16). -/
inductive Encoded where
  | command (p : Nat) (w : Word)
  | packet (p : Nat) (bytes : List Byte)
  | position (v : BitVec 4)
deriving DecidableEq, Repr

/-- Why bits are no instruction. -/
inductive Reject where
  /-- A command word other than the eight of R54 (R55): it executes as ILLEGAL (R118). -/
  | illegalCommand
  /-- A packet of fewer than 3 bytes, which has no format (R66). -/
  | tooShort
  /-- A packet of more than 32 bytes (R67). -/
  | oversize
  /-- ENG_STEP 11 to 15, "never reached" (R16). -/
  | unreachablePosition
deriving DecidableEq, Repr

/-- The command of a word; the match is on all 32 bits (R54, R55). -/
def decodeCommand (w : Word) : Option Command :=
  if w = 0x00000001#32 then some .init
  else if w = 0x00000002#32 then some .enable
  else if w = 0x00000003#32 then some .send
  else if w = 0x00000004#32 then some .read
  else if w = 0x00000005#32 then some .reset
  else if w = 0x00000006#32 then some .close
  else if w = 0x00000007#32 then some .encode
  else if w = 0x00000008#32 then some .decode
  else none

/-- A packet's format, from its extended flag, byte 0 bit 7 (R50, R51). -/
def decodePacket (p : Nat) (bytes : List Byte) : Except Reject Instr :=
  if bytes.length < 3 then .error .tooShort
  else if bytes.length > 32 then .error .oversize
  else
    match bytes with
    | [] => .error .tooShort
    | b0 :: body =>
      if b0.msb then .ok (.pktExt p (b0.setWidth 7) body) else .ok (.pktStd p (b0.setWidth 7) body)

/-- The engine step at a value of ENG_STEP (R16). -/
def decodePosition (v : BitVec 4) : Except Reject Instr :=
  if v = 0#4 then .ok .s0Idle
  else if v = 1#4 then .ok .s1Standby
  else if v = 2#4 then .ok .s2Clear
  else if v = 3#4 then .ok .s3Listen
  else if v = 4#4 then .ok .s4Poll
  else if v = 5#4 then .ok .s5Read
  else if v = 6#4 then .ok .s6MaxRt
  else if v = 7#4 then .ok .s7TxDs
  else if v = 8#4 then .ok .s8Chan
  else if v = 9#4 then .ok .s9Write
  else if v = 10#4 then .ok .s10Yield
  else .error .unreachablePosition

/-- The decoder: total, rejecting by name. -/
def decode : Encoded → Except Reject Instr
  | .command p w =>
    match decodeCommand w with
    | some c => .ok (c.instr p)
    | none => .error .illegalCommand
  | .packet p bytes => decodePacket p bytes
  | .position v => decodePosition v

/-- Byte 0 of a packet: the extended flag in bit 7, the dlc field in bits 6 to 0 (R50). -/
def packetByte0 (ext : Bool) (dlc : BitVec 7) : Byte := BitVec.ofBool ext ++ dlc

/-- The encoder, from the tables of R54, R50 and R16. -/
def encode : Instr → Encoded
  | .init p => .command p 0x00000001#32
  | .enable p => .command p 0x00000002#32
  | .send p => .command p 0x00000003#32
  | .read p => .command p 0x00000004#32
  | .reset p => .command p 0x00000005#32
  | .close p => .command p 0x00000006#32
  | .encode p => .command p 0x00000007#32
  | .decode p => .command p 0x00000008#32
  | .pktStd p dlc body => .packet p (packetByte0 false dlc :: body)
  | .pktExt p dlc body => .packet p (packetByte0 true dlc :: body)
  | .s0Idle => .position 0#4
  | .s1Standby => .position 1#4
  | .s2Clear => .position 2#4
  | .s3Listen => .position 3#4
  | .s4Poll => .position 4#4
  | .s5Read => .position 5#4
  | .s6MaxRt => .position 6#4
  | .s7TxDs => .position 7#4
  | .s8Chan => .position 8#4
  | .s9Write => .position 9#4
  | .s10Yield => .position 10#4

/-- The three places an encoding can stand. -/
inductive Space where
  | command | packet | position
deriving DecidableEq, Repr

/-- A row of spec/opcode_table.json: the place it is read at, its width, its mask and match. -/
structure Row where
  space : Space
  bits : Nat
  mask : Nat
  value : Nat
deriving DecidableEq, Repr

/-- A row's bits stand in `w`. -/
def Row.accepts (r : Row) (w : Nat) : Bool := Nat.land w r.mask == r.value

/-- The 21 rows of spec/opcode_table.json, in its order. -/
def opcodeTable : List Row :=
  [⟨.command, 32, 0xFFFFFFFF, 1⟩, ⟨.command, 32, 0xFFFFFFFF, 2⟩, ⟨.command, 32, 0xFFFFFFFF, 3⟩,
   ⟨.command, 32, 0xFFFFFFFF, 4⟩, ⟨.command, 32, 0xFFFFFFFF, 5⟩, ⟨.command, 32, 0xFFFFFFFF, 6⟩,
   ⟨.command, 32, 0xFFFFFFFF, 7⟩, ⟨.command, 32, 0xFFFFFFFF, 8⟩] ++
  [⟨.packet, 8, 0x80, 0x00⟩, ⟨.packet, 8, 0x80, 0x80⟩] ++
  [⟨.position, 4, 0xF, 0⟩, ⟨.position, 4, 0xF, 1⟩, ⟨.position, 4, 0xF, 2⟩, ⟨.position, 4, 0xF, 3⟩,
   ⟨.position, 4, 0xF, 4⟩, ⟨.position, 4, 0xF, 5⟩, ⟨.position, 4, 0xF, 6⟩, ⟨.position, 4, 0xF, 7⟩,
   ⟨.position, 4, 0xF, 8⟩, ⟨.position, 4, 0xF, 9⟩, ⟨.position, 4, 0xF, 10⟩]

/-- The row of an instruction: its place in `opcodeTable`. -/
def Instr.rowIndex : Instr → Nat
  | .init _ => 0
  | .enable _ => 1
  | .send _ => 2
  | .read _ => 3
  | .reset _ => 4
  | .close _ => 5
  | .encode _ => 6
  | .decode _ => 7
  | .pktStd _ _ _ => 8
  | .pktExt _ _ _ => 9
  | .s0Idle => 10
  | .s1Standby => 11
  | .s2Clear => 12
  | .s3Listen => 13
  | .s4Poll => 14
  | .s5Read => 15
  | .s6MaxRt => 16
  | .s7TxDs => 17
  | .s8Chan => 18
  | .s9Write => 19
  | .s10Yield => 20

/-- The place an encoding stands at, and the bits the table numbers there. -/
def Encoded.space : Encoded → Space
  | .command _ _ => .command
  | .packet _ _ => .packet
  | .position _ => .position

/-- The bits of an encoding that the table gives its row, as a number: the command word, a packet's
byte 0, the value of ENG_STEP. -/
def Encoded.tableBits : Encoded → Nat
  | .command _ w => w.toNat
  | .packet _ [] => 0
  | .packet _ (b0 :: _) => b0.toNat
  | .position v => v.toNat

/-- The first `n` bytes of a number, the least significant first: byte 0 of a packet is its first
byte (R36's lane order). -/
def bytesOf : Nat → Nat → List Byte
  | 0, _ => []
  | n + 1, w => BitVec.ofNat 8 w :: bytesOf n (w / 256)

/-- Where the bits of a table word stand (log entry 5). 32 bits are a command word, written to port
0's CMD. The table's rows of one byte are of two kinds that no bit tells apart, ENG_STEP values and
packets' first bytes: values 0 to 10 are taken as ENG_STEP, the others as byte 0 of a packet read
for port 0, whose further bytes, up to MAXPAY, are zero. -/
def placeTableWord (nbits w : Nat) : Encoded :=
  if nbits = 32 then .command 0 (BitVec.ofNat 32 w)
  else if nbits ≤ 8 ∧ w ≤ 10 then .position (BitVec.ofNat 4 w)
  else .packet 0 (bytesOf 32 w)

/-- The instruction the decoder reads from a word of the opcode table. -/
def decodeTableWord (nbits w : Nat) : Option Instr :=
  match decode (placeTableWord nbits w) with
  | .ok i => some i
  | .error _ => none

end Sys2Proof
end

