-- ==== Sys2Proof/Machine/State.lean ====
section
/-! DEFINITION. The machine's state as plain data (R11, R14 to R26), the reasons it can stop, and
the state after reset (R29). -/

namespace Sys2Proof.Machine

open Sys2Proof

/-- The lifecycle state LIFE, 2 bits (R18). -/
inductive Life where
  | off | ready | enabled | fatal
deriving DecidableEq, Repr

/-- The result codes by name (R56); `codeOf` gives the numbers. -/
inductive ResultCode where
  | ok | errIllegalCmd | errState | errFull | fatalProbe | encBadDlc | encBadId | decTooShort
  | decOversize | decBadDlc | decTruncated | decBadId | decNonCanonical | none | pending
deriving DecidableEq, Repr

/-- The five statistics counters, 32 bits each (R25). -/
structure Stats where
  /-- STAT_TXC (tx_complete). -/
  txc : Word
  /-- STAT_TXL (tx_lost). -/
  txl : Word
  /-- STAT_TXP (tx_postponed). -/
  txp : Word
  /-- STAT_RXC (rx_complete). -/
  rxc : Word
  /-- STAT_RXL (rx_lost). -/
  rxl : Word
deriving DecidableEq, Repr

/-- The radio configuration registers (R24). -/
structure RadioConfig where
  /-- CFG_ADDR. -/
  addr : BitVec 40
  /-- CFG_CHANNEL. -/
  channel : BitVec 8
  /-- CFG_RETRY_COUNT. -/
  retryCount : BitVec 8
  /-- CFG_RETRY_DELAY. -/
  retryDelay : BitVec 8
deriving DecidableEq, Repr

/-- A port's operand registers (R14), which are also what a command's snapshot copies (R15). -/
structure Operands where
  /-- FRAME_ID. -/
  frameId : BitVec 32
  /-- FRAME_DLC. -/
  frameDlc : BitVec 4
  /-- FRAME_DATA, data[0] first. -/
  frameData : Vector Byte 8
  /-- BAUD. -/
  baud : BitVec 32
  /-- PKT_SIZE. -/
  pktSize : BitVec 6
  /-- PKT_BUF, byte 0 first. -/
  pktBuf : Vector Byte 32
deriving DecidableEq, Repr

/-- A latched command `(op, snap)` (R15). -/
structure Pending where
  op : Command
  snap : Operands
deriving DecidableEq, Repr

/-- One command port (R14, R132): its pending command, its RESULT and its operand registers. -/
structure Port where
  /-- CMD_PEND. -/
  pend : Option Pending
  /-- RESULT. -/
  result : BitVec 8
  regs : Operands
deriving DecidableEq, Repr

/-- A radio request with its argument (R86). `flush_rx` is in the source's list, but the block never
issues it, so it has no constructor. -/
inductive RadioRequest where
  | config (c : RadioConfig)
  | probe
  | notify
  | opened
  | listen
  | standby
  | close
  | clearStatus
  | rxPending
  | read
  | write (p : Packet)
  | flushTx
  | channelAvailable
deriving DecidableEq, Repr

/-- An entry of ETRACE: the two event outputs (R4), and the marker RST appends (R29). -/
inductive OutEvent where
  | yieldReq
  | fatalResetReq
  | reset
deriving DecidableEq, Repr

/-- What the host got back from its last bus access (R32 to R34); the model's own field. -/
inductive BusResponse where
  /-- No access yet. -/
  | none
  /-- A read's value. -/
  | data (v : Word)
  /-- A write was admitted. -/
  | done
  /-- BusError: refused, with no data (R34). -/
  | error
deriving DecidableEq, Repr

/-- The state. The fields up to `ports` are the record of R11; `rtrace` and `etrace` are the two
traces R11 says the observation records; the rest is the model's own: the parameters of R6, the
response on the host's bus, and what the environment does next (log entries 1 to 4). -/
structure State where
  /-- LIFE (R18). -/
  life : Life
  /-- ENG_STEP (R16). -/
  engStep : BitVec 4
  /-- EVT_PEND (R19). -/
  evtPend : Bool
  /-- ENG_FAULT (R20). -/
  engFault : Bool
  /-- FLAGS (R17): bit 0 RX_DR, bit 1 MAX_RT, bit 2 TX_DS. -/
  flags : BitVec 3
  /-- WOKE (R21). -/
  woke : Bool
  /-- OUTQ, head first (R26). -/
  outq : List Packet
  /-- INQ, head first (R26). -/
  inq : List Packet
  /-- The statistics counters (R25). -/
  stats : Stats
  /-- The configuration registers (R24). -/
  cfg : RadioConfig
  /-- The NPORT command ports, port 0 first (R14, R132). -/
  ports : List Port
  /-- RTRACE, oldest first (R11). -/
  rtrace : List RadioRequest
  /-- ETRACE, oldest first (R11). -/
  etrace : List OutEvent
  /-- QCAP and BASE (R6). -/
  params : Config.Params
  /-- The response to the host's last bus access. -/
  bus : BusResponse
  /-- What the environment and the scheduler do next, in order. -/
  inputs : List Config.Input
  /-- Radio answers already settled, oldest first. -/
  answers : List Config.Answer
  /-- How many free values have been drawn. -/
  draws : Nat
deriving DecidableEq, Repr

/-- Why the machine stops with a fault. None is an effect the spec gives an instruction; all are
SAFE (the model stops where the spec says nothing happens or nothing is said). -/
inductive Fault where
  /-- Raised by a bus access outside the window, which the block does not decode (R30). Safe. -/
  | addressNotDecoded
  /-- Raised by S9 when OUTQ is empty, which R83 says never happens. Safe. -/
  | popFromEmptyOutq
  /-- Raised when the engine is scheduled at ENG_STEP 11 to 15, "never reached" (R16). Safe. -/
  | unreachablePosition
deriving DecidableEq, Repr

/-- Why the machine has no meaning for an instruction. -/
inductive Refusal where
  /-- Raised by `exec` for an instruction with no meaning yet. Safe. -/
  | notModelled (mnemonic : String)
  /-- Raised by an instruction that names a port the block does not have (R132); no bus access can
  reach one. Safe. -/
  | noSuchPort
deriving DecidableEq, Repr

/-- The operand registers after RST (R29). -/
def Operands.reset : Operands :=
  { frameId := 0, frameDlc := 0, frameData := Vector.replicate 8 0, baud := 0, pktSize := 0,
    pktBuf := Vector.replicate 32 0 }

/-- A port after RST: nothing pending, RESULT = 0xFE (NONE) (R29). -/
def Port.reset : Port := { pend := none, result := 0xFE#8, regs := Operands.reset }

/-- The counters after RST (R29). -/
def Stats.reset : Stats := ⟨0, 0, 0, 0, 0⟩

/-- The configuration registers after RST (R29). -/
def RadioConfig.reset : RadioConfig := ⟨0, 0, 0, 0⟩

/-- The machine right after reset (R29), with the default parameters of R6 and nothing said about
the environment. The traces are empty: R11 does not count them as state (log entry 6). -/
def State.reset : State :=
  { life := .off, engStep := 0#4, evtPend := false, engFault := false, flags := 0, woke := false,
    outq := [], inq := [], stats := Stats.reset, cfg := RadioConfig.reset,
    ports := List.replicate Config.referencePorts Port.reset, rtrace := [], etrace := [],
    params := Config.reference, bus := .none, inputs := [], answers := [], draws := 0 }

end Sys2Proof.Machine
end

