-- ==== Sys2Proof/Machine/Flags.lean ====
section
/-! DEFINITION. Codes, flags and counters: the numbers of the result codes (R56) and of LIFE (R18),
the bits of FLAGS (R17), the composition of STATUS and PARAMS (R22, R23), the saturating increment
(R91). -/

namespace Sys2Proof.Machine

open Sys2Proof

/-- The number of a result code (R56). -/
def codeOf : ResultCode → BitVec 8
  | .ok => 0x00
  | .errIllegalCmd => 0x01
  | .errState => 0x02
  | .errFull => 0x03
  | .fatalProbe => 0x04
  | .encBadDlc => 0x10
  | .encBadId => 0x11
  | .decTooShort => 0x20
  | .decOversize => 0x21
  | .decBadDlc => 0x22
  | .decTruncated => 0x23
  | .decBadId => 0x24
  | .decNonCanonical => 0x25
  | .none => 0xFE
  | .pending => 0xFF

/-- The 2-bit value of LIFE (R18). -/
def lifeCode : Life → BitVec 2
  | .off => 0
  | .ready => 1
  | .enabled => 2
  | .fatal => 3

/-- FLAGS.RX_DR (R17). -/
def rxDr (s : State) : Bool := s.flags.getLsbD 0

/-- FLAGS.MAX_RT (R17). -/
def maxRt (s : State) : Bool := s.flags.getLsbD 1

/-- FLAGS.TX_DS (R17). -/
def txDs (s : State) : Bool := s.flags.getLsbD 2

/-- BUSY: a run is in progress (R16, R23). -/
def busy (s : State) : Bool := s.engStep != 0#4

/-- `sat_inc` (R91). -/
def satInc (c : Word) : Word := if c = 0xFFFFFFFF#32 then c else c + 1

/-- STATUS, composed at the moment of the read (R23). -/
def statusWord (s : State) : Word :=
  BitVec.ofNat 8 s.inq.length ++ BitVec.ofNat 8 s.outq.length ++ 0#3 ++ BitVec.ofBool s.woke ++
    s.engStep ++ s.flags ++ BitVec.ofBool s.engFault ++ BitVec.ofBool s.evtPend ++
    BitVec.ofBool (busy s) ++ lifeCode s.life

/-- PARAMS (R22): QCAP in bits 7 to 0, NPORT in bits 11 to 8. -/
def paramsWord (s : State) : Word :=
  0#20 ++ BitVec.ofNat 4 s.ports.length ++ BitVec.ofNat 8 s.params.qcap

end Sys2Proof.Machine
end

