-- ==== Sys2Proof/Machine/Operands.lean ====
section
/-! DEFINITION. The operand forms: the byte lanes of the registers (R36), a port's operand registers
by offset (R14), the frame and packet images they hold (R9, R14). -/

namespace Sys2Proof.Machine

open Sys2Proof

/-- Byte `k` of a word sits at bits [8k+7:8k] (R36). -/
def laneByte (k : Nat) (w : Word) : Byte := w.extractLsb' (8 * k) 8

/-- A word from its four lanes, lane 0 first (R36). -/
def laneWord (b0 b1 b2 b3 : Byte) : Word := b3 ++ b2 ++ b1 ++ b0

/-- The register that shows bytes `4 * k` to `4 * k + 3` of a byte sequence (R14, R36). -/
def readLanes {n : Nat} (v : Vector Byte n) (k : Nat) : Word :=
  laneWord (v[4 * k]?.getD 0) (v[4 * k + 1]?.getD 0) (v[4 * k + 2]?.getD 0) (v[4 * k + 3]?.getD 0)

/-- A write of `w` to that register (R14, R36): each byte takes its lane. -/
def writeLanes {n : Nat} (v : Vector Byte n) (k : Nat) (w : Word) : Vector Byte n :=
  Vector.ofFn fun i => if i.val / 4 = k then laneByte (i.val % 4) w else v[i]

/-- A packet's bytes as a 32-byte image, zero past its end: `pkt ++ zeros(32 - len(pkt))` (R112). -/
def imageOf (pkt : Packet) : Vector Byte 32 := Vector.ofFn fun i => pkt.getD i.val 0

/-- The first `n` bytes of an image: `bytes[0..n)` (R97). -/
def packetOf (n : Nat) (b : Vector Byte 32) : Packet := b.toList.take n

/-- A read of an operand register at its offset in the port's window (R14, R32). CMD and every
unlisted offset read 0. RESULT is the port's, not an operand register. -/
def readOperand (r : Operands) (off : Nat) : Word :=
  if off = 0x08 then r.frameId
  else if off = 0x0C then r.frameDlc.setWidth 32
  else if off = 0x10 then readLanes r.frameData 0
  else if off = 0x14 then readLanes r.frameData 1
  else if off = 0x18 then r.baud
  else if off = 0x1C then r.pktSize.setWidth 32
  else if 0x20 ≤ off ∧ off < 0x40 then readLanes r.pktBuf ((off - 0x20) / 4)
  else 0

/-- A write to an operand register (R14, R33): fields take their bits, reserved bits are discarded,
an unlisted offset takes nothing. -/
def writeOperand (r : Operands) (off : Nat) (v : Word) : Operands :=
  if off = 0x08 then { r with frameId := v }
  else if off = 0x0C then { r with frameDlc := v.setWidth 4 }
  else if off = 0x10 then { r with frameData := writeLanes r.frameData 0 v }
  else if off = 0x14 then { r with frameData := writeLanes r.frameData 1 v }
  else if off = 0x18 then { r with baud := v }
  else if off = 0x1C then { r with pktSize := v.setWidth 6 }
  else if 0x20 ≤ off ∧ off < 0x40 then
    { r with pktBuf := writeLanes r.pktBuf ((off - 0x20) / 4) v }
  else r

end Sys2Proof.Machine
end

