-- ==== Sys2Proof/Machine/Codec.lean ====
section
/-! DEFINITION. FrameCodec (40_codec.md): two total functions on bit values that read nothing but
their arguments (R59). -/

namespace Sys2Proof.Machine

open Sys2Proof

/-- A CAN frame as the codec handles it (R9). -/
structure Frame where
  id : BitVec 32
  dlc : BitVec 4
  data : Vector Byte 8
deriving DecidableEq, Repr

/-- A frame is valid when dlc ≤ 8 and id ≤ 0x1FFFFFFF (R9). -/
def validFrame (f : Frame) : Bool :=
  decide (f.dlc.toNat ≤ 8) && decide (f.id.toNat ≤ 0x1FFFFFFF)

/-- The payload of a frame: data[0..dlc). -/
def payload (f : Frame) : List Byte := f.data.toList.take f.dlc.toNat

/-- Equal as CAN frames (R9): bytes at and beyond dlc do not count. -/
def sameCanFrame (f g : Frame) : Bool :=
  decide (f.id = g.id) && decide (f.dlc = g.dlc) && decide (payload f = payload g)

/-- The header of a packet: R63's choice of format by the id's magnitude, the id big-endian (R35). -/
def headerOf (f : Frame) : List Byte :=
  if f.id.toNat > 0x7FF then
    [0x80#8 ||| f.dlc.setWidth 8, f.id.extractLsb' 24 8, f.id.extractLsb' 16 8,
      f.id.extractLsb' 8 8, f.id.extractLsb' 0 8]
  else
    [f.dlc.setWidth 8, f.id.extractLsb' 8 8, f.id.extractLsb' 0 8]

/-- `Encode` (R60 to R64). -/
def encodeFrame (f : Frame) : Except ResultCode Packet :=
  if f.dlc.toNat > 8 then .error .encBadDlc
  else if f.id.toNat > 0x1FFFFFFF then .error .encBadId
  else .ok (headerOf f ++ payload f)

/-- The size checks of `Decode`, before any byte is read (R66, R67). -/
def checkSize (n : Nat) : Except ResultCode Unit :=
  if n < 3 then .error .decTooShort else if n > 32 then .error .decOversize else .ok ()

/-- `b[hdr .. hdr+dlc) ++ zeros(8 - dlc)` (R72). -/
def dataFrom (b : Vector Byte 32) (hdr dlc : Nat) : Vector Byte 8 :=
  Vector.ofFn fun i => if i.val < dlc then (b[hdr + i.val]?).getD 0 else 0

/-- `Decode` of a packet of size `n` whose byte 0 has E = 0 (R65, R68 to R73). -/
def decodeStandard (n : Nat) (dlc : BitVec 7) (b : Vector Byte 32) : Except ResultCode Frame :=
  if dlc.toNat > 8 then .error .decBadDlc
  else if 3 + dlc.toNat > n then .error .decTruncated
  else if (b[1] ++ b[2]).toNat > 0x7FF then .error .decBadId
  else .ok ⟨(b[1] ++ b[2]).setWidth 32, dlc.setWidth 4, dataFrom b 3 dlc.toNat⟩

/-- `Decode` of a packet of size `n` whose byte 0 has E = 1 (R65, R68 to R73). -/
def decodeExtended (n : Nat) (dlc : BitVec 7) (b : Vector Byte 32) : Except ResultCode Frame :=
  if dlc.toNat > 8 then .error .decBadDlc
  else if 5 + dlc.toNat > n then .error .decTruncated
  else if (b[1] ++ b[2] ++ b[3] ++ b[4]).toNat > 0x1FFFFFFF then .error .decBadId
  else if (b[1] ++ b[2] ++ b[3] ++ b[4]).toNat ≤ 0x7FF then .error .decNonCanonical
  else .ok ⟨b[1] ++ b[2] ++ b[3] ++ b[4], dlc.setWidth 4, dataFrom b 5 dlc.toNat⟩

/-- `Decode` (R65): the first check that applies decides. -/
def decodeFrame (n : Nat) (b : Vector Byte 32) : Except ResultCode Frame :=
  match checkSize n with
  | .error c => .error c
  | .ok _ =>
    if b[0].msb then decodeExtended n (b[0].setWidth 7) b
    else decodeStandard n (b[0].setWidth 7) b

end Sys2Proof.Machine
end

