-- ==== Sys2Proof/Machine/Ops.lean ====
section
/-! DEFINITION. The named operations every meaning is written over: a port's registers, the radio
port (R86, R87), the output events (R8), the FIFO primitives (41_queues.md), the issue and the
completion of a command (R106 to R108), a run's entry, return and fault (60_exceptions.md), and
what happens next (R5). The block has no memory (R27) and no trap mechanism (60_exceptions.md):
error results, the event latch and the run entry stand in their place. -/

namespace Sys2Proof.Machine

open Sys2Proof Config

/-! ### Ports -/

/-- Port `p` exists (R132). -/
def hasPort (s : State) (p : Nat) : Bool := decide (p < s.ports.length)

/-- Port `p`'s record. -/
def portOf (s : State) (p : Nat) : Port := s.ports.getD p Port.reset

/-- Write port `p`'s record. -/
def setPort (p : Nat) (x : Port) (s : State) : State := { s with ports := s.ports.set p x }

/-- `RESULT[p] <- code` (R8, R56). -/
def setResult (p : Nat) (c : ResultCode) (s : State) : State :=
  setPort p { portOf s p with result := codeOf c } s

/-- The frame a port's operand registers, or a snapshot of them, hold (R14). -/
def frameOf (r : Operands) : Frame := ⟨r.frameId, r.frameDlc, r.frameData⟩

/-- FRAME_ID, FRAME_DLC and FRAME_DATA take a decoded frame (R112, R117). -/
def setFrame (r : Operands) (f : Frame) : Operands :=
  { r with frameId := f.id, frameDlc := f.dlc, frameData := f.data }

/-- PKT_SIZE and PKT_BUF take an encoded packet (R116). -/
def setPacket (r : Operands) (pkt : Packet) : Operands :=
  { r with pktSize := BitVec.ofNat 6 pkt.length, pktBuf := imageOf pkt }

/-- The end of READ and of DECODE (R112, R117): a decoded frame goes to port `p`'s FRAME registers
with OK, a DEC_* code to RESULT alone. -/
def deliver (p : Nat) (r : Except ResultCode Frame) (s : State) : State :=
  match r with
  | .error c => setResult p c s
  | .ok f =>
    setPort p { portOf s p with regs := setFrame (portOf s p).regs f, result := codeOf .ok } s

/-- Run `f` on port `p`; an instruction that names no port of the block is refused. -/
def onPort (p : Nat) (f : State → State) (s : State) : Host.Outcome State Fault Refusal :=
  if hasPort s p then .next (f s) else .refused .noSuchPort

/-! ### Radio port and output events -/

/-- Append a request to RTRACE (R8, R87). -/
def logRadio (r : RadioRequest) (s : State) : State := { s with rtrace := s.rtrace ++ [r] }

/-- `emit e` (R8). -/
def emit (e : OutEvent) (s : State) : State := { s with etrace := s.etrace ++ [e] }

/-- The first settled answer of a kind, and the answers without it. -/
def takeAnswer {α : Type} (kind : Answer → Option α) : List Answer → Option (α × List Answer)
  | [] => none
  | a :: rest =>
    match kind a with
    | some x => some (x, rest)
    | none => (takeAnswer kind rest).map fun r => (r.1, a :: r.2)

/-- `draw T` (R8): the environment's choice, settled beforehand (R57) or else a free value. -/
def draw {α : Type} (kind : Answer → Option α) (free : Nat → α) (s : State) : α × State :=
  match takeAnswer kind s.answers with
  | some (x, rest) => (x, { s with answers := rest })
  | none => (free s.draws, { s with draws := s.draws + 1 })

/-- Answers to PROBE (R86). -/
def probeKind : Answer → Option Bool
  | .probe ok => some ok
  | _ => none

/-- Answers to CLEAR_STATUS (R86). -/
def flagsKind : Answer → Option (BitVec 3)
  | .flags f => some f
  | _ => none

/-- Answers to RX_PENDING (R86). -/
def countKind : Answer → Option (BitVec 8)
  | .count n => some n
  | _ => none

/-- Answers to READ (R86). -/
def packetKind : Answer → Option (BitVec 6 × Vector Byte 32)
  | .packet n b => some (n, b)
  | _ => none

/-- Answers to CHANNEL_AVAILABLE (R86). -/
def availableKind : Answer → Option Bool
  | .available ok => some ok
  | _ => none

/-- `Radio(PROBE)` (R86). -/
def askProbe (s : State) : Bool × State := draw probeKind radioProbe (logRadio .probe s)

/-- `Radio(CLEAR_STATUS)` (R86). -/
def askFlags (s : State) : BitVec 3 × State := draw flagsKind radioFlags (logRadio .clearStatus s)

/-- `Radio(RX_PENDING)` (R86). -/
def askCount (s : State) : BitVec 8 × State := draw countKind radioCount (logRadio .rxPending s)

/-- `Radio(READ)` (R86). -/
def askPacket (s : State) : (BitVec 6 × Vector Byte 32) × State :=
  draw packetKind radioPacket (logRadio .read s)

/-- `Radio(CHANNEL_AVAILABLE)` (R86). -/
def askChannel (s : State) : Bool × State :=
  draw availableKind radioAvailable (logRadio .channelAvailable s)

/-- The three requests that open the radio: NOTIFY, OPEN, LISTEN (R110). -/
def openRadio (s : State) : State := logRadio .listen (logRadio .opened (logRadio .notify s))

/-! ### FIFOs -/

/-- `PushOut` (R80): the state on acceptance, `none` on refusal. -/
def pushOut (pkt : Packet) (s : State) : Option State :=
  if s.outq.length < s.params.qcap then some { s with outq := s.outq ++ [pkt] } else none

/-- `PushIn` (R81). -/
def pushIn (pkt : Packet) (s : State) : Option State :=
  if s.inq.length < s.params.qcap then some { s with inq := s.inq ++ [pkt] } else none

/-- `NonEmptyOut` (R82). -/
def nonEmptyOut (s : State) : Bool := decide (s.outq.length > 0)

/-- `PopOut` (R83): `none` is `empty`. -/
def popOut (s : State) : Option (Packet × State) :=
  match s.outq with
  | [] => none
  | pkt :: rest => some (pkt, { s with outq := rest })

/-- `PopIn` (R84): `none` is `empty`. -/
def popIn (s : State) : Option (Packet × State) :=
  match s.inq with
  | [] => none
  | pkt :: rest => some (pkt, { s with inq := rest })

/-! ### Commands: legality, issue and completion -/

/-- `Legal(op, LIFE)`, the table of R108. -/
def legal : Command → Life → Bool
  | .init, .off => true
  | .init, _ => false
  | .enable, .ready | .enable, .enabled => true
  | .enable, _ => false
  | .send, .ready | .send, .enabled => true
  | .send, _ => false
  | .read, .ready | .read, .enabled => true
  | .read, _ => false
  | .reset, .ready | .reset, .enabled => true
  | .reset, _ => false
  | .close, .ready | .close, .enabled => true
  | .close, _ => false
  | .encode, _ => true
  | .decode, _ => true

/-- The lifecycle commands that wait for an idle engine (R15, R106). -/
def isLifecycle : Command → Bool
  | .init | .enable | .reset | .close => true
  | .send | .read | .encode | .decode => false

/-- `Waits(op)` (R106). -/
def waits (c : Command) (s : State) : Bool :=
  match c with
  | .read => s.inq.isEmpty
  | .init | .enable | .reset | .close => busy s
  | .send | .encode | .decode => false

/-- A port's pending command is a READ (R97). -/
def readPending (x : Port) : Bool :=
  match x.pend with
  | some pc => decide (pc.op = .read)
  | none => false

/-- A port's pending command is a lifecycle command (R92). -/
def lifecyclePending (x : Port) : Bool :=
  match x.pend with
  | some pc => isLifecycle pc.op
  | none => false

/-- `CMD_PEND[p] <- (op, snap); RESULT[p] <- 0xFF` (R106). -/
def latchCommand (p : Nat) (c : Command) (snap : Operands) (s : State) : State :=
  setPort p { portOf s p with pend := some ⟨c, snap⟩, result := codeOf .pending } s

/-- `Issue(p, w)` for a word that decodes to `c` (R106): dropped while a command is pending, else
run at once on a snapshot of the operand registers, unless the command is legal and must wait.
`body` is the command's rule. -/
def issueCommand (p : Nat) (c : Command) (body : Operands → State → State) (s : State) : State :=
  match (portOf s p).pend with
  | some _ => s
  | none =>
    if legal c s.life && waits c s then latchCommand p c (portOf s p).regs s
    else body (portOf s p).regs s

/-- `CMD_PEND[p] <- none` (R107). -/
def clearPending (p : Nat) (s : State) : State := setPort p { portOf s p with pend := none } s

/-! ### The engine's runs -/

/-- The condition of S0 (R92). -/
def runMayStart (s : State) : Bool :=
  s.evtPend && decide (s.life = .enabled) && !s.engFault && s.ports.all fun x => !lifecyclePending x

/-- A run's entry (R92, R126): nothing is saved, control goes to S1. -/
def startRun (s : State) : State := { s with evtPend := false, woke := false, engStep := 1#4 }

/-- A run's return (R102, R127). -/
def endRun (s : State) : State := { s with woke := false, engStep := 0#4 }

/-- The end of a run on a radio contract violation (R97, R127): the one fault inside a run. -/
def faultRun (s : State) : State := { s with engFault := true, woke := false, engStep := 0#4 }

/-- The fatal escalation of a failed probe (R109, R119). -/
def escalate (s : State) : State := emit .fatalResetReq { s with life := .fatal }

/-- Run an engine step's rule when ENG_STEP stands at its position; otherwise the step is not
enabled and the engine holds (R8). -/
def atStep (k : BitVec 4) (body : State → Host.Outcome State Fault Refusal) (s : State) :
    Host.Outcome State Fault Refusal :=
  if s.engStep = k then body s else .next s

/-- Move the sequencer (R16). -/
def goto (k : BitVec 4) (s : State) : State := { s with engStep := k }

/-! ### The environment -/

/-- The next input: the one the state lists, or a free value (R5, R43). -/
def takeInput (s : State) : Input × State :=
  match s.inputs with
  | i :: rest => (i, { s with inputs := rest })
  | [] => (nextInput s.draws, { s with draws := s.draws + 1 })

/-- `irq` (R89): latched only while ENABLED. -/
def raiseIrq (s : State) : State := if s.life = .enabled then { s with evtPend := true } else s

/-- RST (R29, R136): every state element takes its reset value and ETRACE gains the marker. The
parameters, RTRACE and the environment's own fields are no state elements and stay. -/
def blockReset (s : State) : State :=
  { s with
    life := .off, engStep := 0#4, evtPend := false, engFault := false, flags := 0, woke := false,
    outq := [], inq := [], stats := Stats.reset, cfg := RadioConfig.reset,
    ports := s.ports.map fun _ => Port.reset, etrace := s.etrace ++ [.reset] }

/-- The host sees the response to its access (R32 to R34). -/
def respond (r : BusResponse) (s : State) : State := { s with bus := r }

end Sys2Proof.Machine
end

