-- ==== Sys2Proof/Machine/Bus.lean ====
section
/-! DEFINITION. The register window (20_memory.md section 1, R14, R22 to R24): the decode of an
address, which accesses are admitted, and the reads and writes of every register but CMD. -/

namespace Sys2Proof.Machine

open Sys2Proof

/-- What a decoded access targets (R30). -/
inductive Target where
  | global (off : Nat)
  | port (p off : Nat)
deriving DecidableEq, Repr

/-- The decode of an address (R30); `none` is "not decoded by this block". -/
def busTarget (s : State) (addr : Nat) : Option Target :=
  if addr < s.params.base then none
  else if addr - s.params.base < 0x100 then some (.global (addr - s.params.base))
  else if addr - s.params.base < 0x100 * (s.ports.length + 1) then
    some (.port ((addr - s.params.base) / 0x100 - 1) ((addr - s.params.base) % 0x100))
  else none

/-- Only aligned 4-byte accesses are admitted (R31). -/
def admitted (addr width : Nat) : Bool := decide (width = 4) && decide (addr % 4 = 0)

/-- The address of offset `off` of port `p`'s window (R14). -/
def portAddress (s : State) (p off : Nat) : Nat := s.params.base + 0x100 * (p + 1) + off

/-- A read of the global window (R22, R23, R32). -/
def readGlobal (s : State) (off : Nat) : Word :=
  if off = 0x000 then statusWord s
  else if off = 0x004 then s.cfg.addr.extractLsb' 0 32
  else if off = 0x008 then (s.cfg.addr.extractLsb' 32 8).setWidth 32
  else if off = 0x00C then s.cfg.channel.setWidth 32
  else if off = 0x010 then 0#16 ++ s.cfg.retryDelay ++ s.cfg.retryCount
  else if off = 0x014 then paramsWord s
  else if off = 0x020 then s.stats.txc
  else if off = 0x024 then s.stats.txl
  else if off = 0x028 then s.stats.txp
  else if off = 0x02C then s.stats.rxc
  else if off = 0x030 then s.stats.rxl
  else 0

/-- A write to a configuration register (R22, R33); every other offset is read-only or unlisted. -/
def writeConfig (c : RadioConfig) (off : Nat) (v : Word) : RadioConfig :=
  if off = 0x004 then { c with addr := c.addr.extractLsb' 32 8 ++ v }
  else if off = 0x008 then { c with addr := v.extractLsb' 0 8 ++ c.addr.extractLsb' 0 32 }
  else if off = 0x00C then { c with channel := v.extractLsb' 0 8 }
  else if off = 0x010 then
    { c with retryCount := v.extractLsb' 0 8, retryDelay := v.extractLsb' 8 8 }
  else c

/-- A read of port `p`'s window (R14, R32): RESULT, an operand register, or 0. -/
def readPort (s : State) (p off : Nat) : Word :=
  if off = 0x04 then (portOf s p).result.setWidth 32 else readOperand (portOf s p).regs off

/-- A write to port `p`'s window at an offset other than CMD's (R14, R33). -/
def writePort (p off : Nat) (v : Word) (s : State) : State :=
  setPort p { portOf s p with regs := writeOperand (portOf s p).regs off v } s

/-- The value of a register (R32). -/
def readTarget (s : State) : Target → Word
  | .global off => readGlobal s off
  | .port p off => readPort s p off

/-- `MemRead(addr, width)` (R30 to R34): a read changes no state of the block. -/
def busRead (addr width : Nat) (s : State) : Host.Outcome State Fault Refusal :=
  match busTarget s addr with
  | none => .fault .addressNotDecoded
  | some t =>
    if admitted addr width then .next (respond (.data (readTarget s t)) s)
    else .next (respond .error s)

end Sys2Proof.Machine
end

