-- ==== Sys2Proof/Machine/Commands.lean ====
section
/-! DEFINITION. The eight commands (43_commands.md): for each the body its rule gives, run on a
snapshot of the operand registers, and the meaning of its word, which issues it (R106). -/

namespace Sys2Proof.Machine

open Sys2Proof

/-- INIT (R109). -/
def initBody (p : Nat) (_snap : Operands) (s : State) : State :=
  if legal .init s.life then
    let a := askProbe (logRadio (.config s.cfg) s)
    if a.1 then setResult p .ok { a.2 with outq := [], inq := [], life := .ready }
    else setResult p .fatalProbe (escalate a.2)
  else setResult p .errState s

/-- ENABLE (R110): the snapshot's BAUD is ignored. -/
def enableBody (p : Nat) (_snap : Operands) (s : State) : State :=
  if legal .enable s.life then setResult p .ok { openRadio s with life := .enabled }
  else setResult p .errState s

/-- The trigger of a successful SEND, "once", only in ENABLED (R19, R111). -/
def triggerRun (s : State) : State := if s.life = .enabled then { s with evtPend := true } else s

/-- SEND (R111). -/
def sendBody (p : Nat) (snap : Operands) (s : State) : State :=
  if legal .send s.life then
    match encodeFrame (frameOf snap) with
    | .error c => setResult p c s
    | .ok pkt =>
      match pushOut pkt s with
      | none => setResult p .errFull s
      | some t => setResult p .ok (triggerRun t)
  else setResult p .errState s

/-- READ (R112). Its caller gives it a non-empty INQ (R106, R107); on an empty one it would wait,
which is what the last arm says. -/
def readBody (p : Nat) (snap : Operands) (s : State) : State :=
  if legal .read s.life then
    match popIn s with
    | some (pkt, t) => deliver p (decodeFrame pkt.length (imageOf pkt)) t
    | none => latchCommand p .read snap s
  else setResult p .errState s

/-- RESET (R113): CLOSE's part, then ENABLE's part, in one step. -/
def resetBody (p : Nat) (_snap : Operands) (s : State) : State :=
  if legal .reset s.life then
    setResult p .ok { openRadio (logRadio .close s) with evtPend := false, life := .enabled }
  else setResult p .errState s

/-- CLOSE (R115). -/
def closeBody (p : Nat) (_snap : Operands) (s : State) : State :=
  if legal .close s.life then
    setResult p .ok { logRadio .close s with evtPend := false, life := .ready }
  else setResult p .errState s

/-- ENCODE (R116). -/
def encodeBody (p : Nat) (snap : Operands) (s : State) : State :=
  match encodeFrame (frameOf snap) with
  | .error c => setResult p c s
  | .ok pkt =>
    setPort p { portOf s p with regs := setPacket (portOf s p).regs pkt, result := codeOf .ok } s

/-- DECODE (R117). -/
def decodeBody (p : Nat) (snap : Operands) (s : State) : State :=
  deliver p (decodeFrame snap.pktSize.toNat snap.pktBuf) s

/-- `Exec(p, op, snap)` (R106). -/
def runCommand (c : Command) (p : Nat) (snap : Operands) (s : State) : State :=
  match c with
  | .init => initBody p snap s
  | .enable => enableBody p snap s
  | .send => sendBody p snap s
  | .read => readBody p snap s
  | .reset => resetBody p snap s
  | .close => closeBody p snap s
  | .encode => encodeBody p snap s
  | .decode => decodeBody p snap s

/-- Meaning of INIT (R106, R109). -/
def execInit (p : Nat) (s : State) : Host.Outcome State Fault Refusal :=
  onPort p (issueCommand p .init (initBody p)) s

/-- Meaning of ENABLE (R106, R110). -/
def execEnable (p : Nat) (s : State) : Host.Outcome State Fault Refusal :=
  onPort p (issueCommand p .enable (enableBody p)) s

/-- Meaning of SEND (R106, R111). -/
def execSend (p : Nat) (s : State) : Host.Outcome State Fault Refusal :=
  onPort p (issueCommand p .send (sendBody p)) s

/-- Meaning of READ (R106, R112). -/
def execRead (p : Nat) (s : State) : Host.Outcome State Fault Refusal :=
  onPort p (issueCommand p .read (readBody p)) s

/-- Meaning of RESET (R106, R113). -/
def execReset (p : Nat) (s : State) : Host.Outcome State Fault Refusal :=
  onPort p (issueCommand p .reset (resetBody p)) s

/-- Meaning of CLOSE (R106, R115). -/
def execClose (p : Nat) (s : State) : Host.Outcome State Fault Refusal :=
  onPort p (issueCommand p .close (closeBody p)) s

/-- Meaning of ENCODE (R106, R116). -/
def execEncode (p : Nat) (s : State) : Host.Outcome State Fault Refusal :=
  onPort p (issueCommand p .encode (encodeBody p)) s

/-- Meaning of DECODE (R106, R117). -/
def execDecode (p : Nat) (s : State) : Host.Outcome State Fault Refusal :=
  onPort p (issueCommand p .decode (decodeBody p)) s

/-- ILLEGAL (R118): a CMD write of any other word. Like every CMD write it is dropped while a
command is pending on the port (R106). -/
def illegalCommand (p : Nat) (s : State) : State :=
  match (portOf s p).pend with
  | some _ => s
  | none => setResult p .errIllegalCmd s

/-- Port `p`'s own step (R107): a pending command that no longer waits is cleared and run. With
nothing to run the port holds. -/
def portTurn (p : Nat) (s : State) : State :=
  match (portOf s p).pend with
  | none => s
  | some pc => if waits pc.op s then s else runCommand pc.op p pc.snap (clearPending p s)

end Sys2Proof.Machine
end

