-- ==== Sys2Proof/Machine/Engine.lean ====
section
/-! DEFINITION. The engine's eleven steps (42_event_handler.md, section 3). -/

namespace Sys2Proof.Machine

open Sys2Proof

/-- S0 (R92): start a run when one may start, else hold. -/
def execS0Idle (s : State) : Host.Outcome State Fault Refusal :=
  atStep 0#4 (fun s => .next (if runMayStart s then startRun s else s)) s

/-- S1 (R93). -/
def execS1Standby (s : State) : Host.Outcome State Fault Refusal :=
  atStep 1#4 (fun s => .next (goto 2#4 (logRadio .standby s))) s

/-- S2 (R94). -/
def execS2Clear (s : State) : Host.Outcome State Fault Refusal :=
  atStep 2#4 (fun s => .next (goto 3#4 { (askFlags s).2 with flags := (askFlags s).1 })) s

/-- S3 (R95). -/
def execS3Listen (s : State) : Host.Outcome State Fault Refusal :=
  atStep 3#4 (fun s => .next (goto (if rxDr s then 4#4 else 6#4) (logRadio .listen s))) s

/-- S4 after the answer (R96): `n` is the count, `s` the state after the request. -/
def testPending (n : BitVec 8) (s : State) : State := goto (if 0 < n.toNat then 5#4 else 6#4) s

/-- S4 (R96). -/
def execS4Poll (s : State) : Host.Outcome State Fault Refusal :=
  atStep 4#4 (fun s => .next (testPending (askCount s).1 (askCount s).2)) s

/-- S5 after the answer (R97): `n` and `b` are the size and the bytes, `s` the state after the
request. -/
def takePacket (n : BitVec 6) (b : Vector Byte 32) (s : State) : State :=
  if n.toNat > 32 then faultRun s
  else
    match pushIn (packetOf n.toNat b) s with
    | some t =>
      goto 4#4 { t with
        stats := { t.stats with rxc := satInc t.stats.rxc }
        woke := t.woke || t.ports.any readPending }
    | none => goto 4#4 { s with stats := { s.stats with rxl := satInc s.stats.rxl } }

/-- S5 (R97). -/
def execS5Read (s : State) : Host.Outcome State Fault Refusal :=
  atStep 5#4 (fun s => .next (takePacket (askPacket s).1.1 (askPacket s).1.2 (askPacket s).2)) s

/-- S6 after the test of FLAGS.MAX_RT (R98). -/
def abandonFrame (s : State) : State :=
  { logRadio .flushTx s with stats := { s.stats with txl := satInc s.stats.txl } }

/-- S6 (R98). -/
def execS6MaxRt (s : State) : Host.Outcome State Fault Refusal :=
  atStep 6#4 (fun s => .next (goto 7#4 (if maxRt s then abandonFrame s else s))) s

/-- S7 (R99). -/
def execS7TxDs (s : State) : Host.Outcome State Fault Refusal :=
  atStep 7#4
    (fun s => .next (goto 8#4
      (if txDs s then { s with stats := { s.stats with txc := satInc s.stats.txc } } else s))) s

/-- S8 with a packet waiting (R100): `free` is the carrier-sense answer, `s` the state after the
request. -/
def senseChannel (free : Bool) (s : State) : State :=
  if free then goto 9#4 s
  else goto 10#4 { s with stats := { s.stats with txp := satInc s.stats.txp } }

/-- S8 (R100). -/
def execS8Chan (s : State) : Host.Outcome State Fault Refusal :=
  atStep 8#4
    (fun s => .next
      (if nonEmptyOut s then senseChannel (askChannel s).1 (askChannel s).2 else goto 10#4 s)) s

/-- S9 (R101). "S9 never sees `empty`" (R83): an empty OUTQ here is a fault. -/
def execS9Write (s : State) : Host.Outcome State Fault Refusal :=
  atStep 9#4
    (fun s =>
      match popOut s with
      | some (pkt, t) => .next (goto 10#4 (logRadio (.write pkt) t))
      | none => .fault .popFromEmptyOutq) s

/-- S10 (R102). -/
def execS10Yield (s : State) : Host.Outcome State Fault Refusal :=
  atStep 10#4 (fun s => .next (endRun (if s.woke then emit .yieldReq s else s))) s

end Sys2Proof.Machine
end

