-- ==== Sys2Proof/Machine/Packets.lean ====
section
/-! DEFINITION. The two packet formats (R50): what reading a packet of the format for port `p` does.
READ and DECODE read a packet this way (R112, R117); the size checks of R66 and R67 come first. -/

namespace Sys2Proof.Machine

open Sys2Proof

/-- Meaning of a standard packet: R65 with E = 0, the outcome delivered to port `p`. -/
def execPktStd (p : Nat) (dlc : BitVec 7) (body : List Byte) (s : State) :
    Host.Outcome State Fault Refusal :=
  onPort p
    (deliver p
      (match checkSize (1 + body.length) with
       | .error c => .error c
       | .ok _ => decodeStandard (1 + body.length) dlc (imageOf (packetByte0 false dlc :: body)))) s

/-- Meaning of an extended packet: R65 with E = 1, the outcome delivered to port `p`. -/
def execPktExt (p : Nat) (dlc : BitVec 7) (body : List Byte) (s : State) :
    Host.Outcome State Fault Refusal :=
  onPort p
    (deliver p
      (match checkSize (1 + body.length) with
       | .error c => .error c
       | .ok _ => decodeExtended (1 + body.length) dlc (imageOf (packetByte0 true dlc :: body)))) s

end Sys2Proof.Machine
end

