-- ==== Sys2Proof/Machine/Dispatch.lean ====
section
/-! DEFINITION. One arm per instruction. -/

namespace Sys2Proof.Machine

open Sys2Proof

def exec (i : Instr) (s : State) : Host.Outcome State Fault Refusal :=
  match i with
  | .init p => Sys2Proof.Machine.execInit p s
  | .enable p => Sys2Proof.Machine.execEnable p s
  | .send p => Sys2Proof.Machine.execSend p s
  | .read p => Sys2Proof.Machine.execRead p s
  | .reset p => Sys2Proof.Machine.execReset p s
  | .close p => Sys2Proof.Machine.execClose p s
  | .encode p => Sys2Proof.Machine.execEncode p s
  | .decode p => Sys2Proof.Machine.execDecode p s
  | .pktStd p dlc body => Sys2Proof.Machine.execPktStd p dlc body s
  | .pktExt p dlc body => Sys2Proof.Machine.execPktExt p dlc body s
  | .s0Idle => Sys2Proof.Machine.execS0Idle s
  | .s1Standby => Sys2Proof.Machine.execS1Standby s
  | .s2Clear => Sys2Proof.Machine.execS2Clear s
  | .s3Listen => Sys2Proof.Machine.execS3Listen s
  | .s4Poll => Sys2Proof.Machine.execS4Poll s
  | .s5Read => Sys2Proof.Machine.execS5Read s
  | .s6MaxRt => Sys2Proof.Machine.execS6MaxRt s
  | .s7TxDs => Sys2Proof.Machine.execS7TxDs s
  | .s8Chan => Sys2Proof.Machine.execS8Chan s
  | .s9Write => Sys2Proof.Machine.execS9Write s
  | .s10Yield => Sys2Proof.Machine.execS10Yield s

end Sys2Proof.Machine
end

