-- ==== Sys2Proof/Machine/Agents.lean ====
section
/-! DEFINITION. The steps of the agents that run instructions (R5): the host's bus write, which
issues a command when it hits a CMD register, and the engine's step. -/

namespace Sys2Proof.Machine

open Sys2Proof

/-- A write of `w` to port `p`'s CMD (R33, R54, R55, R106): the decoded command, or ILLEGAL. -/
def issueWord (p : Nat) (w : Word) (s : State) : Host.Outcome State Fault Refusal :=
  match decode (.command p w) with
  | .ok i => exec i s
  | .error _ => .next (illegalCommand p s)

/-- An admitted write to a register (R33). -/
def writeTarget (t : Target) (v : Word) (s : State) : Host.Outcome State Fault Refusal :=
  match t with
  | .global off => .next { s with cfg := writeConfig s.cfg off v }
  | .port p off => if off = 0 then issueWord p v s else .next (writePort p off v s)

/-- `MemWrite(addr, width, v)` (R30 to R34). -/
def busWrite (addr width : Nat) (v : Word) (s : State) : Host.Outcome State Fault Refusal :=
  match busTarget s addr with
  | none => .fault .addressNotDecoded
  | some t => if admitted addr width then writeTarget t v (respond .done s) else .next (respond .error s)

/-- The engine's step: it runs the instruction at ENG_STEP (R16). -/
def engineTurn (s : State) : Host.Outcome State Fault Refusal :=
  match decode (.position s.engStep) with
  | .ok i => exec i s
  | .error _ => .fault .unreachablePosition

/-- What one input does (R5, R135). -/
def takeTurn (i : Config.Input) (s : State) : Host.Outcome State Fault Refusal :=
  match i with
  | .busRead addr width => busRead addr width s
  | .busWrite addr width v => busWrite addr width v s
  | .irq => .next (raiseIrq s)
  | .rst => .next (blockReset s)
  | .engine => engineTurn s
  | .port p => .next (portTurn p s)
  | .answer a => .next { s with answers := s.answers ++ [a] }

/-- A port made ready to take a command: nothing pending. -/
def readyPort (p : Nat) (s : State) : State := clearPending p s

/-- The state in which the next step runs the command word `w` on port `p`: the host's next access
is the write of `w` to its CMD. -/
def withCommand (p : Nat) (w : Word) (s : State) : State :=
  { readyPort p s with inputs := .busWrite (portAddress s p 0) 4 w :: s.inputs }

/-- The state in which the next step reads the packet `bytes` for port `p`: PKT_SIZE and PKT_BUF
hold it, and the host's next access is the write of DECODE to the port's CMD. -/
def withPacket (p : Nat) (bytes : List Byte) (s : State) : State :=
  let x := portOf s p
  withCommand p 0x00000008#32 (setPort p { x with regs := setPacket x.regs bytes } s)

/-- The state in which the next step is the engine's at position `v`. A run exists only while
ENABLED, S0 starts one only with an event latched, no ENG_FAULT and no lifecycle command pending
(R92), and S9 always has a packet to send (R83). -/
def withPosition (v : BitVec 4) (s : State) : State :=
  { s with
    engStep := v, life := .enabled, inputs := .engine :: s.inputs
    evtPend := if v = 0#4 then true else s.evtPend
    engFault := false
    ports := if v = 0#4 then s.ports.map (fun x => { x with pend := none }) else s.ports
    outq := if v = 9#4 ∧ s.outq = [] then [[0, 0, 0]] else s.outq }

/-- Place bits where the machine finds its next instruction. -/
def placeInstruction (e : Encoded) (s : State) : State :=
  match e with
  | .command p w => withCommand p w s
  | .packet p bytes => withPacket p bytes s
  | .position v => withPosition v s

end Sys2Proof.Machine
end

