-- ==== Sys2Proof/Machine/Step.lean ====
section
/-! DEFINITION. One step of the machine: one atomic step of one agent (R39, R43). -/

namespace Sys2Proof.Machine

open Sys2Proof

/-- One atomic step: what happens next is taken from the state and done. -/
def step (s : State) : Host.Outcome State Fault Refusal :=
  takeTurn (takeInput s).1 (takeInput s).2

/-- `s` with a table word placed where the next step runs it (log entry 5). -/
def State.withFetchWord (s : State) (nbits w : Nat) : State :=
  placeInstruction (placeTableWord nbits w) s

end Sys2Proof.Machine
end

