-- ==== Sys2Proof/Safety.lean ====
section
/-! DEFINITION. What a sound state is, when the block is at rest, and whole runs of the engine: the
terms the statements use. -/

namespace Sys2Proof.Machine

open Sys2Proof

/-- The parameters are legal (R6): 1 ≤ QCAP ≤ 255, 1 ≤ NPORT ≤ 15, BASE a multiple of 0x1000. -/
def paramsLegal (s : State) : Bool :=
  decide (1 ≤ s.params.qcap ∧ s.params.qcap ≤ 255 ∧ 1 ≤ s.ports.length ∧
    s.ports.length ≤ 15 ∧ s.params.base % 0x1000 = 0)

/-- Both FIFOs within QCAP (R85); what SEND queued is 3 to 13 bytes (R64), what the radio gave at
most 32 (R76). -/
def fifosSound (s : State) : Bool :=
  decide (s.outq.length ≤ s.params.qcap) && decide (s.inq.length ≤ s.params.qcap) &&
    s.outq.all (fun p => decide (3 ≤ p.length ∧ p.length ≤ 13)) &&
    s.inq.all (fun p => decide (p.length ≤ 32))

/-- Before INIT and in FATAL no FIFO exists, so both stand empty (R18, R78). -/
def noFifosUninitialised (s : State) : Bool :=
  !(decide (s.life = .off) || decide (s.life = .fatal)) || (s.outq.isEmpty && s.inq.isEmpty)

/-- ENG_STEP is one of S0 to S10 (R16), a run exists only in ENABLED with no ENG_FAULT (R92, R97,
R106), S9 has a packet to send (R83), and WOKE is 0 when the engine is idle (R114). -/
def engineSound (s : State) : Bool :=
  decide (s.engStep.toNat ≤ 10) &&
    (!busy s || (decide (s.life = .enabled) && !s.engFault)) &&
    (!decide (s.engStep = 9#4) || !s.outq.isEmpty) && (!s.woke || busy s)

/-- EVT_PEND stands only in ENABLED (R19). -/
def latchSound (s : State) : Bool := !s.evtPend || decide (s.life = .enabled)

/-- The numbers R56 lists. -/
def knownCodes : List (BitVec 8) :=
  [0x00, 0x01, 0x02, 0x03, 0x04, 0x10, 0x11, 0x20, 0x21, 0x22, 0x23, 0x24, 0x25, 0xFE, 0xFF]

/-- A port is sound in LIFE `l`: RESULT is a code of R56 and reads 0xFF exactly while a command is
pending; only READ, ENABLE, RESET and CLOSE ever are, and only once INIT succeeded (R15, R56, R106,
R108). -/
def portSound (l : Life) (x : Port) : Bool :=
  decide (x.result ∈ knownCodes) &&
    match x.pend with
    | none => decide (x.result ≠ 0xFF#8)
    | some pc =>
      decide (x.result = 0xFF#8) && (decide (l = .ready) || decide (l = .enabled)) &&
        (decide (pc.op = .read) || decide (pc.op = .enable) || decide (pc.op = .reset) ||
          decide (pc.op = .close))

/-- A sound state: what every reachable state is. -/
def sound (s : State) : Bool :=
  paramsLegal s && fifosSound s && noFifosUninitialised s && engineSound s && latchSound s &&
    s.ports.all (portSound s.life)

/-- The numbers R56 gives what Encode refuses with. -/
def encodeCodes : List (ResultCode × BitVec 8) := [(.encBadDlc, 0x10), (.encBadId, 0x11)]

/-- The numbers R56 gives what Decode refuses with. -/
def decodeCodes : List (ResultCode × BitVec 8) :=
  [(.decTooShort, 0x20), (.decOversize, 0x21), (.decBadDlc, 0x22), (.decTruncated, 0x23),
   (.decBadId, 0x24), (.decNonCanonical, 0x25)]

/-- The next step takes command `c`: its word is written to a port's CMD, or a port is scheduled with
it pending (R106, R107). -/
def takesCommand (s : State) (c : Command) : Prop :=
  (∃ (p : Nat) (w : Word), p < s.ports.length ∧
    (takeInput s).1 = .busWrite (portAddress s p 0) 4 w ∧ decodeCommand w = some c) ∨
  (∃ (p : Nat) (x : Port) (pc : Pending), (takeInput s).1 = .port p ∧ s.ports[p]? = some x ∧
    x.pend = some pc ∧ pc.op = c)

/-- The engine has an enabled step (R92 to R102). -/
def engineEnabled (s : State) : Bool := busy s || runMayStart s

/-- Port `p` has an enabled step (R107). -/
def portEnabled (s : State) (p : Nat) : Bool :=
  match (portOf s p).pend with
  | none => false
  | some pc => !waits pc.op s

/-- Quiescence, R152's four conditions. -/
def quiescent (s : State) : Bool :=
  !busy s && (!s.evtPend || !decide (s.life = .enabled) || s.engFault) &&
    s.ports.all (fun x => !lifecyclePending x) &&
    s.ports.all (fun x =>
      match x.pend with
      | none => true
      | some pc => decide (pc.op = .read) && s.inq.isEmpty)

/-- Engine steps alone, until the run ends: at most `fuel + 1` of them. `none` when the fuel ends
first or a step stops. -/
def runToIdle : Nat → State → Option State
  | 0, _ => none
  | fuel + 1, s =>
    match engineTurn s with
    | .next t => if t.engStep = 0#4 then some t else runToIdle fuel t
    | _ => none

/-- The radio's answers in a drain of `ps`: a non-zero count before each packet, then 0 (R96, R97). -/
def drainAnswers : List (BitVec 6 × Vector Byte 32) → List Config.Answer
  | [] => [.count 0]
  | p :: ps => .count 1 :: .packet p.1 p.2 :: drainAnswers ps

/-- The requests of a drain of `n` packets: `RX_PENDING, (READ, RX_PENDING)*` (R103). -/
def drainRequests : Nat → List RadioRequest
  | 0 => [.rxPending]
  | n + 1 => .rxPending :: .read :: drainRequests n

/-- One round's radio answers when the channel is busy: the flags, a drain if RX_DR is among them,
and no carrier-sense clearance (R103, R104). -/
def busyRoundAnswers (f : BitVec 3) (ps : List (BitVec 6 × Vector Byte 32)) : List Config.Answer :=
  .flags f :: (if f.getLsbD 0 then drainAnswers ps else []) ++ [.available false]

/-- `k` rounds of: the radio raises `irq`, and the engine takes one whole run of at most `fuel`
steps (R104). -/
def interruptCycles (fuel : Nat) : Nat → State → Option State
  | 0, s => some s
  | k + 1, s =>
    match runToIdle fuel (raiseIrq s) with
    | some t => interruptCycles fuel k t
    | none => none

/-- The counter after `k` increments (R91). -/
def satIncTimes : Nat → Word → Word
  | 0, c => c
  | k + 1, c => satIncTimes k (satInc c)

/-- Push packets one after another onto OUTQ; `none` once one is refused (R80). -/
def pushAllOut : List Packet → State → Option State
  | [], s => some s
  | p :: ps, s =>
    match pushOut p s with
    | some t => pushAllOut ps t
    | none => none

/-- Push packets one after another onto INQ; `none` once one is refused (R81). -/
def pushAllIn : List Packet → State → Option State
  | [], s => some s
  | p :: ps, s =>
    match pushIn p s with
    | some t => pushAllIn ps t
    | none => none

/-- Pop `n` packets from OUTQ, first popped first (R83). -/
def popManyOut : Nat → State → Option (List Packet × State)
  | 0, s => some ([], s)
  | n + 1, s =>
    match popOut s with
    | some (p, t) => (popManyOut n t).map fun r => (p :: r.1, r.2)
    | none => none

/-- Pop `n` packets from INQ, first popped first (R84). -/
def popManyIn : Nat → State → Option (List Packet × State)
  | 0, s => some ([], s)
  | n + 1, s =>
    match popIn s with
    | some (p, t) => (popManyIn n t).map fun r => (p :: r.1, r.2)
    | none => none

end Sys2Proof.Machine
end

