-- ==== Sys2Proof/Certificates/Slice0/Obligations.lean ====
section
/-! DEFINITION. The statements for the provers. A next state is written out as a record update, so
every field a statement does not name is unchanged: the equations are the frames. -/

open Sys2Proof Sys2Proof.Machine

/-! ### Encodings -/

/-- Decoding what the encoder writes gives every well-formed instruction back (R50, R54, R16). -/
def Obligations.DecodeOfEncodeIsIdentity : Prop :=
  ∀ i : Instr, i.wellFormed = true → decode (encode i) = .ok i

/-- No two encodings mean one instruction: what decodes was written by the encoder. -/
def Obligations.EncodeOfDecodeIsIdentity : Prop :=
  ∀ (e : Encoded) (i : Instr), decode e = .ok i → encode i = e

/-- Words written out from the encoding tables decode to what they stand for. -/
def Obligations.SampleEncodingsDecode : Prop :=
  decode (.command 1 0x00000003#32) = .ok (.send 1) ∧
  decode (.command 0 0x00000008#32) = .ok (.decode 0) ∧
  decode (.command 0 0x80000001#32) = .error .illegalCommand ∧
  decode (.packet 0 [0x02, 0x01, 0x23, 0xDE, 0xAD]) = .ok (.pktStd 0 2 [0x01, 0x23, 0xDE, 0xAD]) ∧
  decode (.packet 0 [0x80, 0x00, 0x00, 0x08, 0x00]) = .ok (.pktExt 0 0 [0x00, 0x00, 0x08, 0x00]) ∧
  decode (.packet 0 [0x12, 0x34]) = .error .tooShort ∧
  decode (.position 0xA#4) = .ok .s10Yield ∧
  decode (.position 0xB#4) = .error .unreachablePosition

/-! ### A step runs the decoded instruction -/

/-- A step is what its input does (R5). A write of a command word to a port's CMD is the instruction
the word decodes to, after the input is taken and the host's write answered; a write of any word there
is its issue; an engine step is the instruction at ENG_STEP. Bus accesses, engine steps and port steps
are the functions other statements speak of; `irq` is in OnlyIrqAndSendLatchAnEvent and RST in
RstResetsEveryElement. That the input is the head of a list, or a free value when none is listed, and
that a settled answer waits at the end of one, is the model's choice (log entries 3 and 4). -/
def Obligations.StepRunsTheDecodedInstruction : Prop :=
  ∀ s : State,
    (∀ (p : Nat) (w : Word) (i : Instr),
      (takeInput s).1 = .busWrite (portAddress s p 0) 4 w → p < s.ports.length →
      s.params.base % 0x1000 = 0 → decode (.command p w) = .ok i →
      step s = exec i { (takeInput s).2 with bus := .done }) ∧
    (∀ i : Instr, (takeInput s).1 = .engine → decode (.position s.engStep) = .ok i →
      step s = exec i (takeInput s).2) ∧
    (∀ (p : Nat) (w : Word),
      (takeInput s).1 = .busWrite (portAddress s p 0) 4 w → p < s.ports.length →
      s.params.base % 0x1000 = 0 →
      step s = issueWord p w { (takeInput s).2 with bus := .done }) ∧
    (∀ addr width : Nat, (takeInput s).1 = .busRead addr width →
      step s = busRead addr width (takeInput s).2) ∧
    (∀ (addr width : Nat) (v : Word), (takeInput s).1 = .busWrite addr width v →
      step s = busWrite addr width v (takeInput s).2) ∧
    ((takeInput s).1 = .engine → step s = engineTurn (takeInput s).2) ∧
    (∀ p : Nat, (takeInput s).1 = .port p → step s = .next (portTurn p (takeInput s).2)) ∧
    (∀ a : Config.Answer, (takeInput s).1 = .answer a →
      step s = .next { (takeInput s).2 with answers := s.answers ++ [a] }) ∧
    (∀ (i : Config.Input) (rest : List Config.Input), s.inputs = i :: rest →
      takeInput s = (i, { s with inputs := rest })) ∧
    (s.inputs = [] → takeInput s = (Config.nextInput s.draws, { s with draws := s.draws + 1 }))

/-- A packet's instruction runs inside READ and DECODE: READ is the instruction its popped packet
decodes to, DECODE the one its packet image decodes to. That a packet has an instruction of its own,
whose meaning is the end READ and DECODE share, is the model's choice (log entry 12, DEDUCED). -/
def Obligations.ReadAndDecodeRunThePacket : Prop :=
  ∀ (s : State) (p : Nat) (x : Port) (i : Instr),
    s.ports[p]? = some x → x.pend = none →
    (∀ (pkt : Packet) (rest : List Packet),
      s.life = .ready ∨ s.life = .enabled → s.inq = pkt :: rest →
      decode (.packet p pkt) = .ok i → exec (.read p) s = exec i { s with inq := rest }) ∧
    (x.regs.pktSize.toNat ≤ 32 →
      decode (.packet p (x.regs.pktBuf.toList.take x.regs.pktSize.toNat)) = .ok i →
      exec (.decode p) s = exec i s)

/-! ### The codec -/

/-- R74, both directions. -/
def Obligations.FrameCodecRoundTrip : Prop :=
  (∀ f : Frame, validFrame f = true →
    ∃ (pkt : Packet) (g : Frame), encodeFrame f = .ok pkt ∧
      decodeFrame pkt.length (imageOf pkt) = .ok g ∧ sameCanFrame g f = true ∧
      ((∀ k : Fin 8, f.dlc.toNat ≤ k.val → f.data[k] = 0) → g = f)) ∧
  (∀ (n : Nat) (b : Vector Byte 32) (f : Frame), decodeFrame n b = .ok f →
    n = (if b[0].msb then 5 else 3) + f.dlc.toNat → encodeFrame f = .ok (packetOf n b))

/-- R61 to R64: what Encode refuses, and every byte of what it does not. -/
def Obligations.EncodeRefusesOrGivesThePacket : Prop :=
  ∀ f : Frame,
    (8 < f.dlc.toNat → encodeFrame f = .error .encBadDlc) ∧
    (f.dlc.toNat ≤ 8 → 0x1FFFFFFF < f.id.toNat → encodeFrame f = .error .encBadId) ∧
    (f.dlc.toNat ≤ 8 → 0x7FF < f.id.toNat → f.id.toNat ≤ 0x1FFFFFFF →
      encodeFrame f = .ok
        ([BitVec.ofNat 8 (0x80 + f.dlc.toNat), BitVec.ofNat 8 (f.id.toNat / 0x1000000),
          BitVec.ofNat 8 (f.id.toNat / 0x10000), BitVec.ofNat 8 (f.id.toNat / 0x100),
          BitVec.ofNat 8 f.id.toNat] ++ f.data.toList.take f.dlc.toNat)) ∧
    (f.dlc.toNat ≤ 8 → f.id.toNat ≤ 0x7FF →
      encodeFrame f = .ok
        ([BitVec.ofNat 8 f.dlc.toNat, BitVec.ofNat 8 (f.id.toNat / 0x100),
          BitVec.ofNat 8 f.id.toNat] ++ f.data.toList.take f.dlc.toNat)) ∧
    (∀ pkt : Packet, encodeFrame f = .ok pkt →
      pkt.length = (if 0x7FF < f.id.toNat then 5 else 3) + f.dlc.toNat ∧
        3 ≤ pkt.length ∧ pkt.length ≤ 13)

/-- R65 to R73: Decode's checks in their order, and the frame it gives when none applies; `hdr` is
the header's size and `id` what its id bytes hold. -/
def Obligations.DecodeChecksInOrder : Prop :=
  ∀ (n : Nat) (b : Vector Byte 32) (dlc hdr id : Nat), dlc = b[0].toNat % 0x80 →
    hdr = (if 0x80 ≤ b[0].toNat then 5 else 3) →
    id = (if 0x80 ≤ b[0].toNat then
        0x1000000 * b[1].toNat + 0x10000 * b[2].toNat + 0x100 * b[3].toNat + b[4].toNat
      else 0x100 * b[1].toNat + b[2].toNat) →
    decodeFrame n b =
      if n < 3 then .error .decTooShort
      else if 32 < n then .error .decOversize
      else if 8 < dlc then .error .decBadDlc
      else if n < hdr + dlc then .error .decTruncated
      else if (if 0x80 ≤ b[0].toNat then 0x1FFFFFFF else 0x7FF) < id then .error .decBadId
      else if 0x80 ≤ b[0].toNat ∧ id ≤ 0x7FF then .error .decNonCanonical
      else .ok
        ⟨BitVec.ofNat 32 id, BitVec.ofNat 4 dlc,
          Vector.ofFn fun k => if k.val < dlc then b.toList.getD (hdr + k.val) 0 else 0⟩

/-- R72: Decode never reads a byte at or past the packet's size. -/
def Obligations.DecodeReadsOnlyThePacket : Prop :=
  ∀ (n : Nat) (b b' : Vector Byte 32),
    (∀ k : Fin 32, k.val < n → b[k] = b'[k]) → decodeFrame n b = decodeFrame n b'

/-- R68 to R72: what Decode accepts is a valid frame that fits its packet, in the format the id's
magnitude asks for, with zeros past dlc. -/
def Obligations.DecodedFrameIsValid : Prop :=
  ∀ (n : Nat) (b : Vector Byte 32) (f : Frame), decodeFrame n b = .ok f →
    validFrame f = true ∧ (if b[0].msb then 5 else 3) + f.dlc.toNat ≤ n ∧ n ≤ 32 ∧
      (b[0].msb = true ↔ 0x7FF < f.id.toNat) ∧
      (∀ k : Fin 8, f.dlc.toNat ≤ k.val → f.data[k] = 0) ∧
      (∀ k : Fin 8, k.val < f.dlc.toNat →
        f.data[k] = b.toList.getD ((if b[0].msb then 5 else 3) + k.val) 0)

/-- R65 for the standard format: the checks in their order, and where the frame goes. That the packet
row's instruction delivers to port p, whatever is pending there, is the model's choice (log entry 12,
DEDUCED). -/
def Obligations.StandardPacketIsRead : Prop :=
  ∀ (s : State) (p : Nat) (x : Port) (dlc : BitVec 7) (b1 b2 : Byte) (rest : List Byte),
    s.ports[p]? = some x → rest.length ≤ 29 →
    exec (.pktStd p dlc (b1 :: b2 :: rest)) s = .next
      { s with
        ports := s.ports.set p
          (if 8 < dlc.toNat then { x with result := 0x22 }
           else if rest.length < dlc.toNat then { x with result := 0x23 }
           else if 0x7FF < 256 * b1.toNat + b2.toNat then { x with result := 0x24 }
           else { x with
             result := 0x00
             regs := { x.regs with
               frameId := BitVec.ofNat 32 (256 * b1.toNat + b2.toNat)
               frameDlc := BitVec.ofNat 4 dlc.toNat
               frameData := Vector.ofFn fun k =>
                 if k.val < dlc.toNat then rest.getD k.val 0 else 0 } }) }

/-- R65 for the extended format. Of a packet of 3 or 4 bytes only the dlc check comes before the
refusal as truncated (R69). That the packet row's instruction delivers to port p, whatever is pending
there, is the model's choice (log entry 12, DEDUCED). -/
def Obligations.ExtendedPacketIsRead : Prop :=
  ∀ (s : State) (p : Nat) (x : Port) (dlc : BitVec 7),
    s.ports[p]? = some x →
    (∀ body : List Byte, 2 ≤ body.length → body.length < 4 →
      exec (.pktExt p dlc body) s = .next
        { s with
          ports := s.ports.set p
            { x with result := if 8 < dlc.toNat then 0x22 else 0x23 } }) ∧
    (∀ (b1 b2 b3 b4 : Byte) (rest : List Byte) (id : Nat), rest.length ≤ 27 →
      id = 0x1000000 * b1.toNat + 0x10000 * b2.toNat + 0x100 * b3.toNat + b4.toNat →
      exec (.pktExt p dlc (b1 :: b2 :: b3 :: b4 :: rest)) s = .next
        { s with
          ports := s.ports.set p
            (if 8 < dlc.toNat then { x with result := 0x22 }
             else if rest.length < dlc.toNat then { x with result := 0x23 }
             else if 0x1FFFFFFF < id then { x with result := 0x24 }
             else if id ≤ 0x7FF then { x with result := 0x25 }
             else { x with
               result := 0x00
               regs := { x.regs with
                 frameId := BitVec.ofNat 32 id
                 frameDlc := BitVec.ofNat 4 dlc.toNat
                 frameData := Vector.ofFn fun k =>
                   if k.val < dlc.toNat then rest.getD k.val 0 else 0 } }) })

/-! ### Issue, legality, waiting -/

/-- R140: while a command is pending, a CMD write of any word to that port has no effect. -/
def Obligations.CommandWriteIsDroppedWhilePending : Prop :=
  ∀ (s : State) (p : Nat) (x : Port) (pc : Pending), s.ports[p]? = some x → x.pend = some pc →
    (∀ w : Word, issueWord p w s = .next s) ∧ (∀ c : Command, exec (c.instr p) s = .next s)

/-- R55, R118: a word is a command exactly when it is one of 1 to 8, all 32 bits counted; any other
leaves ERR_ILLEGAL_CMD and no other effect, in every LIFE. -/
def Obligations.IllegalWordWritesOnlyResult : Prop :=
  ∀ (s : State) (p : Nat) (x : Port) (w : Word), s.ports[p]? = some x → x.pend = none →
    ((∃ i, decode (.command p w) = .ok i) ↔ (1 ≤ w.toNat ∧ w.toNat ≤ 8)) ∧
    (¬(1 ≤ w.toNat ∧ w.toNat ≤ 8) →
      issueWord p w s = .next { s with ports := s.ports.set p { x with result := 0x01 } })

/-- R108: the table of legality, and what a command that is not legal does. -/
def Obligations.IllegalInThisLifeIsErrState : Prop :=
  (∀ (c : Command) (l : Life), legal c l = true ↔
    (c = .init ∧ l = .off) ∨
    ((c = .enable ∨ c = .send ∨ c = .read ∨ c = .reset ∨ c = .close) ∧
      (l = .ready ∨ l = .enabled)) ∨
    (c = .encode ∨ c = .decode)) ∧
  (∀ (s : State) (p : Nat) (x : Port) (c : Command), s.ports[p]? = some x → x.pend = none →
    legal c s.life = false →
    exec (c.instr p) s = .next { s with ports := s.ports.set p { x with result := 0x02 } })

/-- R106: a legal command that must wait is latched with a snapshot of its operands and PENDING. -/
def Obligations.WaitingCommandIsLatched : Prop :=
  ∀ (s : State) (p : Nat) (x : Port) (c : Command), s.ports[p]? = some x → x.pend = none →
    ((c = .read ∧ (s.life = .ready ∨ s.life = .enabled) ∧ s.inq = []) ∨
     ((c = .enable ∨ c = .reset ∨ c = .close) ∧ (s.life = .ready ∨ s.life = .enabled) ∧
       s.engStep ≠ 0#4) ∨
     (c = .init ∧ s.life = .off ∧ s.engStep ≠ 0#4)) →
    exec (c.instr p) s = .next
      { s with ports := s.ports.set p { x with pend := some ⟨c, x.regs⟩, result := 0xFF } }

/-- R107: a pending READ or lifecycle command that no longer waits is cleared and run. (What is run
depends on no operand of the snapshot.) That scheduling a port whose command still waits leaves the
state as it was is the model's choice, its reading of `hold` (log entry 9, DEDUCED). -/
def Obligations.PendingCommandRunsWhenItNoLongerWaits : Prop :=
  ∀ (s : State) (p : Nat) (x : Port) (pc : Pending), s.ports[p]? = some x → x.pend = some pc →
    ((pc.op = .read ∧ s.inq ≠ []) ∨
      ((pc.op = .init ∨ pc.op = .enable ∨ pc.op = .reset ∨ pc.op = .close) ∧ s.engStep = 0#4) →
      exec (pc.op.instr p) { s with ports := s.ports.set p { x with pend := none } }
        = .next (portTurn p s)) ∧
    ((pc.op = .read ∧ s.inq = []) ∨
      ((pc.op = .init ∨ pc.op = .enable ∨ pc.op = .reset ∨ pc.op = .close) ∧ s.engStep ≠ 0#4) →
      portTurn p s = s)

/-! ### The commands -/

/-- R109: INIT in OFF asks CONFIG and PROBE; the answer opens the block or is fatal. In every other
LIFE it is ERR_STATE. -/
def Obligations.InitConfiguresAndProbes : Prop :=
  ∀ (s : State) (p : Nat) (x : Port), s.ports[p]? = some x → x.pend = none →
    (s.life = .off → s.engStep = 0#4 →
      ∃ (ok : Bool) (t : State) (a : List Config.Answer) (d : Nat),
        t = { s with rtrace := s.rtrace ++ [.config s.cfg, .probe], answers := a, draws := d } ∧
        draw probeKind Config.radioProbe
          { s with rtrace := s.rtrace ++ [.config s.cfg, .probe] } = (ok, t) ∧
        (ok = true →
          exec (.init p) s = .next
            { t with outq := [], inq := [], life := .ready
                     ports := s.ports.set p { x with result := 0x00 } }) ∧
        (ok = false →
          exec (.init p) s = .next
            { t with life := .fatal, etrace := s.etrace ++ [.fatalResetReq]
                     ports := s.ports.set p { x with result := 0x04 } })) ∧
    (s.life ≠ .off →
      exec (.init p) s = .next { s with ports := s.ports.set p { x with result := 0x02 } })

/-- R110: ENABLE, whatever BAUD holds. -/
def Obligations.EnableOpensTheRadio : Prop :=
  ∀ (s : State) (p : Nat) (x : Port), s.ports[p]? = some x → x.pend = none →
    (s.life = .ready ∨ s.life = .enabled → s.engStep = 0#4 →
      exec (.enable p) s = .next
        { s with life := .enabled, rtrace := s.rtrace ++ [.notify, .opened, .listen]
                 ports := s.ports.set p { x with result := 0x00 } }) ∧
    (s.life = .off ∨ s.life = .fatal →
      exec (.enable p) s = .next { s with ports := s.ports.set p { x with result := 0x02 } })

/-- R111, R123: SEND's results in their order, and a successful SEND's effects. -/
def Obligations.SendQueuesTheEncodedFrame : Prop :=
  ∀ (s : State) (p : Nat) (x : Port), s.ports[p]? = some x → x.pend = none →
    (s.life = .ready ∨ s.life = .enabled →
      (8 < x.regs.frameDlc.toNat →
        exec (.send p) s = .next { s with ports := s.ports.set p { x with result := 0x10 } }) ∧
      (x.regs.frameDlc.toNat ≤ 8 → 0x1FFFFFFF < x.regs.frameId.toNat →
        exec (.send p) s = .next { s with ports := s.ports.set p { x with result := 0x11 } }) ∧
      (x.regs.frameDlc.toNat ≤ 8 → x.regs.frameId.toNat ≤ 0x1FFFFFFF →
        (s.params.qcap ≤ s.outq.length →
          exec (.send p) s = .next { s with ports := s.ports.set p { x with result := 0x03 } }) ∧
        (s.outq.length < s.params.qcap →
          ∃ pkt : Packet,
            encodeFrame ⟨x.regs.frameId, x.regs.frameDlc, x.regs.frameData⟩ = .ok pkt ∧
            exec (.send p) s = .next
              { s with outq := s.outq ++ [pkt]
                       evtPend := if s.life = .enabled then true else s.evtPend
                       ports := s.ports.set p { x with result := 0x00 } }))) ∧
    (s.life = .off ∨ s.life = .fatal →
      exec (.send p) s = .next { s with ports := s.ports.set p { x with result := 0x02 } })

/-- R112: READ with a packet waiting takes the head of INQ, well-formed or not. -/
def Obligations.ReadTakesTheHeadOfInq : Prop :=
  ∀ (s : State) (p : Nat) (x : Port) (pkt : Packet) (rest : List Packet),
    s.ports[p]? = some x → x.pend = none →
    (s.life = .ready ∨ s.life = .enabled → s.inq = pkt :: rest →
      (∀ f : Frame, decodeFrame pkt.length (imageOf pkt) = .ok f →
        exec (.read p) s = .next
          { s with
            inq := rest
            ports := s.ports.set p
                     { x with result := 0x00
                              regs := { x.regs with
                                frameId := f.id, frameDlc := f.dlc, frameData := f.data } } }) ∧
      (∀ c : ResultCode, decodeFrame pkt.length (imageOf pkt) = .error c →
        ∃ n : BitVec 8, (c, n) ∈ decodeCodes ∧
          exec (.read p) s = .next
            { s with inq := rest, ports := s.ports.set p { x with result := n } })) ∧
    (s.life = .off ∨ s.life = .fatal →
      exec (.read p) s = .next { s with ports := s.ports.set p { x with result := 0x02 } })

/-- R113: RESET is CLOSE's part and ENABLE's part in one step; the counters, the FIFOs, FLAGS, the
configuration and every other port are kept. -/
def Obligations.ResetClosesAndEnables : Prop :=
  ∀ (s : State) (p : Nat) (x : Port), s.ports[p]? = some x → x.pend = none →
    (s.life = .ready ∨ s.life = .enabled → s.engStep = 0#4 →
      exec (.reset p) s = .next
        { s with life := .enabled, evtPend := false
                 rtrace := s.rtrace ++ [.close, .notify, .opened, .listen]
                 ports := s.ports.set p { x with result := 0x00 } }) ∧
    (s.life = .off ∨ s.life = .fatal →
      exec (.reset p) s = .next { s with ports := s.ports.set p { x with result := 0x02 } })

/-- R115: CLOSE keeps both FIFOs. -/
def Obligations.CloseReleasesTheRadio : Prop :=
  ∀ (s : State) (p : Nat) (x : Port), s.ports[p]? = some x → x.pend = none →
    (s.life = .ready ∨ s.life = .enabled → s.engStep = 0#4 →
      exec (.close p) s = .next
        { s with life := .ready, evtPend := false, rtrace := s.rtrace ++ [.close]
                 ports := s.ports.set p { x with result := 0x00 } }) ∧
    (s.life = .off ∨ s.life = .fatal →
      exec (.close p) s = .next { s with ports := s.ports.set p { x with result := 0x02 } })

/-- R116: ENCODE in every LIFE. -/
def Obligations.EncodeWritesThePacketRegisters : Prop :=
  ∀ (s : State) (p : Nat) (x : Port), s.ports[p]? = some x → x.pend = none →
    (∀ pkt : Packet,
      encodeFrame ⟨x.regs.frameId, x.regs.frameDlc, x.regs.frameData⟩ = .ok pkt →
      exec (.encode p) s = .next
        { s with
          ports := s.ports.set p
            { x with result := 0x00
                     regs := { x.regs with
                       pktSize := BitVec.ofNat 6 pkt.length
                       pktBuf := Vector.ofFn fun k => pkt.getD k.val 0 } } }) ∧
    (∀ c : ResultCode,
      encodeFrame ⟨x.regs.frameId, x.regs.frameDlc, x.regs.frameData⟩ = .error c →
      ∃ n : BitVec 8, (c, n) ∈ encodeCodes ∧
        exec (.encode p) s = .next { s with ports := s.ports.set p { x with result := n } })

/-- R117: DECODE in every LIFE. -/
def Obligations.DecodeWritesTheFrameRegisters : Prop :=
  ∀ (s : State) (p : Nat) (x : Port), s.ports[p]? = some x → x.pend = none →
    (∀ f : Frame, decodeFrame x.regs.pktSize.toNat x.regs.pktBuf = .ok f →
      exec (.decode p) s = .next
        { s with
          ports := s.ports.set p
            { x with result := 0x00
                     regs := { x.regs with
                       frameId := f.id, frameDlc := f.dlc, frameData := f.data } } }) ∧
    (∀ c : ResultCode, decodeFrame x.regs.pktSize.toNat x.regs.pktBuf = .error c →
      ∃ n : BitVec 8, (c, n) ∈ decodeCodes ∧
        exec (.decode p) s = .next { s with ports := s.ports.set p { x with result := n } })

/-- R132: a command on one port leaves every other port as it was, and so does a port's own step. -/
def Obligations.OtherPortsAreUntouched : Prop :=
  ∀ (s t : State) (p q : Nat) (c : Command), q ≠ p →
    exec (c.instr p) s = .next t ∨ t = portTurn p s →
    t.ports[q]? = s.ports[q]? ∧ t.ports.length = s.ports.length

/-! ### The engine -/

/-- R92: S0 starts a run under its condition. That S0 scheduled without its condition leaves the state
as it was is the model's choice, its reading of `hold` (log entry 9, DEDUCED). -/
def Obligations.RunStartsUnderItsCondition : Prop :=
  ∀ s : State, s.engStep = 0#4 →
    (s.evtPend = true ∧ s.life = .enabled ∧ s.engFault = false ∧
        (∀ x ∈ s.ports, ∀ pc : Pending, x.pend = some pc →
          pc.op ≠ .init ∧ pc.op ≠ .enable ∧ pc.op ≠ .reset ∧ pc.op ≠ .close) →
      exec .s0Idle s = .next { s with evtPend := false, woke := false, engStep := 1#4 }) ∧
    (¬(s.evtPend = true ∧ s.life = .enabled ∧ s.engFault = false ∧
        (∀ x ∈ s.ports, ∀ pc : Pending, x.pend = some pc →
          pc.op ≠ .init ∧ pc.op ≠ .enable ∧ pc.op ≠ .reset ∧ pc.op ≠ .close)) →
      exec .s0Idle s = .next s)

/-- R93, R94, R95: S1, S2 and S3. -/
def Obligations.RunOpensWithStandbyClearListen : Prop :=
  ∀ s : State,
    (s.engStep = 1#4 →
      exec .s1Standby s = .next { s with engStep := 2#4, rtrace := s.rtrace ++ [.standby] }) ∧
    (s.engStep = 2#4 →
      ∃ (f : BitVec 3) (t : State) (a : List Config.Answer) (d : Nat),
        t = { s with rtrace := s.rtrace ++ [.clearStatus], answers := a, draws := d } ∧
        draw flagsKind Config.radioFlags { s with rtrace := s.rtrace ++ [.clearStatus] } = (f, t) ∧
        exec .s2Clear s = .next { t with flags := f, engStep := 3#4 }) ∧
    (s.engStep = 3#4 →
      exec .s3Listen s = .next
        { s with engStep := if s.flags.getLsbD 0 then 4#4 else 6#4, rtrace := s.rtrace ++ [.listen] })

/-- R96: S4 asks the count and goes to S5 while it is not 0. -/
def Obligations.DrainLoopTestsTheCount : Prop :=
  ∀ s : State, s.engStep = 4#4 →
    ∃ (n : BitVec 8) (t : State) (a : List Config.Answer) (d : Nat),
      t = { s with rtrace := s.rtrace ++ [.rxPending], answers := a, draws := d } ∧
      draw countKind Config.radioCount { s with rtrace := s.rtrace ++ [.rxPending] } = (n, t) ∧
      exec .s4Poll s = .next { t with engStep := if 0 < n.toNat then 5#4 else 6#4 }

/-- R97: S5's four outcomes. -/
def Obligations.DrainLoopQueuesOrDropsThePacket : Prop :=
  ∀ s : State, s.engStep = 5#4 →
    ∃ (n : BitVec 6) (b : Vector Byte 32) (t : State) (a : List Config.Answer) (d : Nat),
      t = { s with rtrace := s.rtrace ++ [.read], answers := a, draws := d } ∧
      draw packetKind Config.radioPacket { s with rtrace := s.rtrace ++ [.read] } = ((n, b), t) ∧
      (32 < n.toNat →
        exec .s5Read s = .next { t with engFault := true, woke := false, engStep := 0#4 }) ∧
      (n.toNat ≤ 32 → s.inq.length < s.params.qcap →
        exec .s5Read s = .next
          { t with inq := s.inq ++ [b.toList.take n.toNat], engStep := 4#4
                   stats := { s.stats with rxc := satInc s.stats.rxc }
                   woke := s.woke || s.ports.any fun x => decide (x.pend.map (·.op) = some .read) }) ∧
      (n.toNat ≤ 32 → s.params.qcap ≤ s.inq.length →
        exec .s5Read s = .next
          { t with engStep := 4#4, stats := { s.stats with rxl := satInc s.stats.rxl } })

/-- R98, R99: S6 and S7 retire what FLAGS says. -/
def Obligations.RunRetiresTransmissions : Prop :=
  ∀ s : State,
    (s.engStep = 6#4 → s.flags.getLsbD 1 = true →
      exec .s6MaxRt s = .next
        { s with engStep := 7#4, rtrace := s.rtrace ++ [.flushTx]
                 stats := { s.stats with txl := satInc s.stats.txl } }) ∧
    (s.engStep = 6#4 → s.flags.getLsbD 1 = false → exec .s6MaxRt s = .next { s with engStep := 7#4 }) ∧
    (s.engStep = 7#4 → s.flags.getLsbD 2 = true →
      exec .s7TxDs s = .next
        { s with engStep := 8#4, stats := { s.stats with txc := satInc s.stats.txc } }) ∧
    (s.engStep = 7#4 → s.flags.getLsbD 2 = false → exec .s7TxDs s = .next { s with engStep := 8#4 })

/-- R100: S8 asks carrier sense only with a packet waiting; a busy channel keeps the packet. -/
def Obligations.CarrierSenseSendsOrPostpones : Prop :=
  ∀ s : State, s.engStep = 8#4 →
    (s.outq = [] → exec .s8Chan s = .next { s with engStep := 10#4 }) ∧
    (s.outq ≠ [] →
      ∃ (free : Bool) (t : State) (a : List Config.Answer) (d : Nat),
        t = { s with rtrace := s.rtrace ++ [.channelAvailable], answers := a, draws := d } ∧
        draw availableKind Config.radioAvailable
          { s with rtrace := s.rtrace ++ [.channelAvailable] } = (free, t) ∧
        exec .s8Chan s = .next
          (if free then { t with engStep := 9#4 }
           else { t with engStep := 10#4, stats := { s.stats with txp := satInc s.stats.txp } }))

/-- R101: S9 hands the head of OUTQ to the radio. -/
def Obligations.SendStepWritesTheHead : Prop :=
  ∀ (s : State) (pkt : Packet) (rest : List Packet), s.engStep = 9#4 → s.outq = pkt :: rest →
    exec .s9Write s = .next
      { s with outq := rest, engStep := 10#4, rtrace := s.rtrace ++ [.write pkt] }

/-- R102: S10 ends the run, with one yield_req if a reader was woken. -/
def Obligations.RunEndsWithOneYield : Prop :=
  ∀ s : State, s.engStep = 10#4 →
    exec .s10Yield s = .next
      { s with engStep := 0#4, woke := false
               etrace := if s.woke then s.etrace ++ [.yieldReq] else s.etrace }

/-- An engine step away from its position is not enabled: the engine holds, which the model reads as a
step that changes nothing (R8, log entry 9). -/
def Obligations.EngineHoldsAwayFromItsPosition : Prop :=
  ∀ (s : State) (i : Instr) (k : BitVec 4), encode i = .position k → s.engStep ≠ k →
    exec i s = .next s

/-- R129: no engine step writes a port, LIFE or the configuration, or issues a command. -/
def Obligations.EngineTouchesNoPort : Prop :=
  ∀ (s t : State), engineTurn s = .next t →
    t.ports = s.ports ∧ t.life = s.life ∧ t.cfg = s.cfg ∧ t.params = s.params ∧ t.bus = s.bus

/-- R87: an answer is drawn from the environment and moves nothing of the block. That a settled answer
comes first, and a free value otherwise, is the model's choice (log entry 3). -/
def Obligations.RadioAnswerMovesNothingElse : Prop :=
  ∀ (α : Type) (kind : Config.Answer → Option α) (free : Nat → α) (s : State),
    ∃ (a : List Config.Answer) (d : Nat),
      (draw kind free s).2 = { s with answers := a, draws := d } ∧
      ((∀ x ∈ s.answers, kind x = none) →
        a = s.answers ∧ d = s.draws + 1 ∧ (draw kind free s).1 = free s.draws) ∧
      (∀ (x : Config.Answer) (v : α) (before after : List Config.Answer),
        s.answers = before ++ x :: after → (∀ y ∈ before, kind y = none) → kind x = some v →
        a = before ++ after ∧ d = s.draws ∧ (draw kind free s).1 = v)

/-! ### Runs of the engine -/

/-- R103: the requests of a whole run, in order, for a drain of any length; the run ends. -/
def Obligations.WholeRunIssuesItsRequestsInOrder : Prop :=
  ∀ (s : State) (f : BitVec 3) (ps : List (BitVec 6 × Vector Byte 32)) (free : Bool)
    (rest : List Config.Answer) (fuel : Nat),
    s.engStep = 1#4 → (∀ p ∈ ps, p.1.toNat ≤ 32) →
    s.answers = .flags f :: (if f.getLsbD 0 then drainAnswers ps else []) ++
      (if s.outq = [] then [] else [.available free]) ++ rest →
    2 * ps.length + 10 ≤ fuel →
    ∃ t : State, runToIdle fuel s = some t ∧ t.answers = rest ∧ t.flags = f ∧
      t.outq = (if free then s.outq.tail else s.outq) ∧
      t.rtrace = s.rtrace ++ [.standby, .clearStatus, .listen] ++
        (if f.getLsbD 0 then drainRequests ps.length else []) ++
        (if f.getLsbD 1 then [.flushTx] else []) ++
        (if s.outq = [] then []
         else .channelAvailable :: (if free then (s.outq.take 1).map .write else []))

/-- R104: K busy interrupt cycles keep the packet at the head of OUTQ, unchanged, and raise STAT_TXP
by K (saturating). -/
def Obligations.PostponementKeepsThePacket : Prop :=
  ∀ (rounds : List (BitVec 3 × List (BitVec 6 × Vector Byte 32))) (s : State) (pkt : Packet)
    (queue : List Packet) (rest : List Config.Answer) (fuel : Nat),
    s.engStep = 0#4 → s.life = .enabled → s.engFault = false →
    (∀ x ∈ s.ports, lifecyclePending x = false) → s.outq = pkt :: queue →
    (∀ r ∈ rounds, (∀ p ∈ r.2, p.1.toNat ≤ 32) ∧ 2 * r.2.length + 11 ≤ fuel) →
    s.answers = (rounds.map fun r => busyRoundAnswers r.1 r.2).flatten ++ rest →
    ∃ t : State, interruptCycles fuel rounds.length s = some t ∧ t.outq = pkt :: queue ∧
      t.stats.txp = satIncTimes rounds.length s.stats.txp ∧
      (s.stats.txp.toNat + rounds.length < 2 ^ 32 →
        t.stats.txp.toNat = s.stats.txp.toNat + rounds.length)

/-! ### FIFOs, counters and events over every step -/

/-- R44 and the capacity property of R85: packets pushed onto an empty FIFO, no more than QCAP, are
all accepted and come out the same, in the same order; with QCAP of them the next push is refused and
the FIFO still holds exactly them. -/
def Obligations.FifoKeepsOrderWithoutLoss : Prop :=
  ∀ (s : State) (ps : List Packet) (p : Packet), ps.length ≤ s.params.qcap →
    (s.outq = [] → ∃ t, pushAllOut ps s = some t ∧ t.outq = ps ∧
      popManyOut ps.length t = some (ps, s) ∧ (ps.length = s.params.qcap → pushOut p t = none)) ∧
    (s.inq = [] → ∃ t, pushAllIn ps s = some t ∧ t.inq = ps ∧
      popManyIn ps.length t = some (ps, s) ∧ (ps.length = s.params.qcap → pushIn p t = none))

/-- R85 and R26 over every step: OUTQ is kept, appended to within QCAP by SEND, popped at its head by
S9, or emptied by a successful INIT or RST; INQ is kept, appended to within QCAP by S5, popped at its
head by READ, or emptied by a successful INIT or RST. -/
def Obligations.EveryStepKeepsFifoDiscipline : Prop :=
  ∀ (s t : State), step s = .next t →
    (t.outq = s.outq ∨
      ((∃ p, t.outq = s.outq ++ [p]) ∧ s.outq.length < s.params.qcap ∧ takesCommand s .send) ∨
      ((∃ p, s.outq = p :: t.outq) ∧ (takeInput s).1 = .engine ∧ s.engStep = 9#4) ∨
      (t.outq = [] ∧ ((takeInput s).1 = .rst ∨
        (takesCommand s .init ∧ s.life = .off ∧ t.life = .ready)))) ∧
    (t.inq = s.inq ∨
      ((∃ p, t.inq = s.inq ++ [p]) ∧ s.inq.length < s.params.qcap ∧
        (takeInput s).1 = .engine ∧ s.engStep = 5#4) ∨
      ((∃ p, s.inq = p :: t.inq) ∧ takesCommand s .read) ∨
      (t.inq = [] ∧ ((takeInput s).1 = .rst ∨
        (takesCommand s .init ∧ s.life = .off ∧ t.life = .ready))))

/-- R19, R89: `irq` latches an event in ENABLED and does nothing elsewhere; whatever sets EVT_PEND is
an `irq` or a SEND that queued its packet, in ENABLED. -/
def Obligations.OnlyIrqAndSendLatchAnEvent : Prop :=
  ∀ (s t : State),
    ((takeInput s).1 = .irq →
      step s = .next
        { (takeInput s).2 with evtPend := if s.life = .enabled then true else s.evtPend }) ∧
    (step s = .next t → s.evtPend = false → t.evtPend = true →
      s.life = .enabled ∧
        ((takeInput s).1 = .irq ∨
          (t.outq.length = s.outq.length + 1 ∧
            ((∃ (p : Nat) (w : Word), w.toNat = 3 ∧
                (takeInput s).1 = .busWrite (portAddress s p 0) 4 w) ∨
             (∃ (p : Nat) (x : Port) (pc : Pending), (takeInput s).1 = .port p ∧
                s.ports[p]? = some x ∧ x.pend = some pc ∧ pc.op = .send)))))

/-- R91: the saturating increment, the only write any step but RST makes to a counter, so that none
ever decreases. -/
def Obligations.CountersOnlyRise : Prop :=
  (∀ c : Word, satInc c = if c.toNat = 0xFFFFFFFF then c else BitVec.ofNat 32 (c.toNat + 1)) ∧
  (∀ (s t : State), step s = .next t → (takeInput s).1 ≠ .rst →
    ∀ get ∈ [Stats.txc, Stats.txl, Stats.txp, Stats.rxc, Stats.rxl],
      (get t.stats = get s.stats ∨
        (get t.stats = satInc (get s.stats) ∧ (takeInput s).1 = .engine)) ∧
      (get s.stats).toNat ≤ (get t.stats).toNat)

/-- R18: LIFE changes only at INIT, ENABLE, RESET, CLOSE and RST. -/
def Obligations.OnlyLifecycleCommandsChangeLife : Prop :=
  ∀ (s t : State), (takeInput s).1 ≠ .rst → step s = .next t → t.life ≠ s.life →
    (∃ (p : Nat) (w : Word) (c : Command), (takeInput s).1 = .busWrite (portAddress s p 0) 4 w ∧
      decode (.command p w) = .ok (c.instr p) ∧ isLifecycle c = true) ∨
    (∃ (p : Nat) (x : Port) (pc : Pending), (takeInput s).1 = .port p ∧ s.ports[p]? = some x ∧
      x.pend = some pc ∧ isLifecycle pc.op = true)

/-- R119: FATAL lasts until RST; no run, no radio request, no packet moves. -/
def Obligations.FatalLastsUntilRst : Prop :=
  ∀ (s t : State), sound s = true → s.life = .fatal → (takeInput s).1 ≠ .rst →
    step s = .next t →
    t.life = .fatal ∧ t.engStep = s.engStep ∧ t.evtPend = s.evtPend ∧ t.rtrace = s.rtrace ∧
      t.etrace = s.etrace ∧ t.outq = s.outq ∧ t.inq = s.inq ∧ t.stats = s.stats

/-- R20: ENG_FAULT lasts until RST, and while it stands an idle engine starts no run. -/
def Obligations.EngineFaultLastsUntilRst : Prop :=
  ∀ (s t : State), s.engFault = true → (takeInput s).1 ≠ .rst → step s = .next t →
    t.engFault = true ∧ (s.engStep = 0#4 → t.engStep = 0#4)

/-! ### Reset -/

/-- R29: the state after reset, element by element. -/
def Obligations.ResetStateHoldsItsValues : Prop :=
  State.reset.life = .off ∧ State.reset.engStep = 0#4 ∧ State.reset.evtPend = false ∧
  State.reset.engFault = false ∧ State.reset.woke = false ∧ State.reset.flags = 0 ∧
  State.reset.outq = [] ∧ State.reset.inq = [] ∧ State.reset.stats = ⟨0, 0, 0, 0, 0⟩ ∧
  State.reset.cfg = ⟨0, 0, 0, 0⟩ ∧
  ∀ x ∈ State.reset.ports, x.pend = none ∧ x.result = 0xFE ∧
    x.regs = ⟨0, 0, Vector.replicate 8 0, 0, 0, Vector.replicate 32 0⟩

/-- R136: RST at any time, in one step, with R29's value for every element. -/
def Obligations.RstResetsEveryElement : Prop :=
  ∀ s : State, (takeInput s).1 = .rst →
    ∃ t : State, step s = .next t ∧
      t.life = .off ∧ t.engStep = 0#4 ∧ t.evtPend = false ∧ t.engFault = false ∧ t.woke = false ∧
      t.flags = 0 ∧ t.outq = [] ∧ t.inq = [] ∧ t.stats = ⟨0, 0, 0, 0, 0⟩ ∧ t.cfg = ⟨0, 0, 0, 0⟩ ∧
      t.ports.length = s.ports.length ∧
      (∀ x ∈ t.ports, x.pend = none ∧ x.result = 0xFE ∧
        x.regs = ⟨0, 0, Vector.replicate 8 0, 0, 0, Vector.replicate 32 0⟩) ∧
      t.rtrace = s.rtrace ∧ t.etrace = s.etrace ++ [.reset] ∧ t.params = s.params

/-! ### The bus -/

/-- R31, R34: an access that is not aligned or not 4 bytes wide is a BusError and changes nothing. -/
def Obligations.UnalignedAccessIsBusError : Prop :=
  ∀ (s : State) (addr width : Nat) (v : Word), s.params.base ≤ addr →
    addr < s.params.base + 0x100 * (s.ports.length + 1) → ¬(width = 4 ∧ addr % 4 = 0) →
    busRead addr width s = .next { s with bus := .error } ∧
    busWrite addr width v s = .next { s with bus := .error }

/-- R32, R14, R22, R36: a read answers the register's value and changes no state; the value at every
listed offset but STATUS's, which is in StatusShowsEveryField. -/
def Obligations.ReadsAnswerAndChangeNothing : Prop :=
  ∀ s : State,
    (∀ off : Nat, s.params.base % 0x1000 = 0 → off % 4 = 0 → off < 0x100 →
      busRead (s.params.base + off) 4 s = .next { s with bus := .data (readGlobal s off) } ∧
      ∀ p : Nat, p < s.ports.length →
        busRead (portAddress s p off) 4 s = .next { s with bus := .data (readPort s p off) }) ∧
    readGlobal s 0x04 = BitVec.ofNat 32 s.cfg.addr.toNat ∧
    readGlobal s 0x08 = BitVec.ofNat 32 (s.cfg.addr.toNat / 2 ^ 32) ∧
    readGlobal s 0x0C = BitVec.ofNat 32 s.cfg.channel.toNat ∧
    readGlobal s 0x10 =
      BitVec.ofNat 32 (s.cfg.retryCount.toNat + 0x100 * s.cfg.retryDelay.toNat) ∧
    (s.params.qcap ≤ 255 → s.ports.length ≤ 15 →
      readGlobal s 0x14 = BitVec.ofNat 32 (s.params.qcap + 0x100 * s.ports.length)) ∧
    readGlobal s 0x20 = s.stats.txc ∧ readGlobal s 0x24 = s.stats.txl ∧
    readGlobal s 0x28 = s.stats.txp ∧ readGlobal s 0x2C = s.stats.rxc ∧
    readGlobal s 0x30 = s.stats.rxl ∧
    ∀ (p : Nat) (x : Port), s.ports[p]? = some x →
      readPort s p 0x00 = 0 ∧ readPort s p 0x04 = BitVec.ofNat 32 x.result.toNat ∧
      readPort s p 0x08 = x.regs.frameId ∧
      readPort s p 0x0C = BitVec.ofNat 32 x.regs.frameDlc.toNat ∧
      (∀ k : Fin 8, (readPort s p (0x10 + 4 * (k.val / 4))).extractLsb' (8 * (k.val % 4)) 8 =
        x.regs.frameData[k]) ∧
      readPort s p 0x18 = x.regs.baud ∧
      readPort s p 0x1C = BitVec.ofNat 32 x.regs.pktSize.toNat ∧
      (∀ k : Fin 32, (readPort s p (0x20 + 4 * (k.val / 4))).extractLsb' (8 * (k.val % 4)) 8 =
        x.regs.pktBuf[k])

/-- R14, R33, R139: a write to an operand register reads back with its reserved bits 0, changes no
other register of any port, and keeps what is pending on every port, its snapshot included. -/
def Obligations.OperandRegistersReadBack : Prop :=
  ∀ (s : State) (p off : Nat) (v : Word), s.params.base % 0x1000 = 0 → p < s.ports.length →
    off % 4 = 0 → 0x08 ≤ off → off < 0x40 →
    ∃ t : State, busWrite (portAddress s p off) 4 v s = .next { t with bus := .done } ∧
      (∃ ports, t = { s with ports := ports }) ∧
      t.ports.map (·.pend) = s.ports.map (·.pend) ∧
      readPort t p off =
        (if off = 0x0C then v &&& 0xF#32 else if off = 0x1C then v &&& 0x3F#32 else v) ∧
      ∀ q off' : Nat, off' % 4 = 0 → (q, off') ≠ (p, off) → readPort t q off' = readPort s q off'

/-- R22, R24, R33: a write to a configuration register sets its fields, reads back with its reserved
bits 0, and changes no other register of the global window. -/
def Obligations.ConfigurationRegistersReadBack : Prop :=
  ∀ (s : State) (off : Nat) (v : Word), s.params.base % 0x1000 = 0 →
    off = 0x04 ∨ off = 0x08 ∨ off = 0x0C ∨ off = 0x10 →
    ∃ c : RadioConfig, busWrite (s.params.base + off) 4 v s = .next { s with cfg := c, bus := .done } ∧
      (off = 0x04 → c = { s.cfg with
        addr := BitVec.ofNat 40 (s.cfg.addr.toNat / 2 ^ 32 * 2 ^ 32 + v.toNat) }) ∧
      (off = 0x08 → c = { s.cfg with
        addr := BitVec.ofNat 40 (v.toNat % 0x100 * 2 ^ 32 + s.cfg.addr.toNat % 2 ^ 32) }) ∧
      (off = 0x0C → c = { s.cfg with channel := BitVec.ofNat 8 v.toNat }) ∧
      (off = 0x10 → c = { s.cfg with
        retryCount := BitVec.ofNat 8 v.toNat, retryDelay := BitVec.ofNat 8 (v.toNat / 0x100) }) ∧
      readGlobal { s with cfg := c } off =
        (if off = 0x04 then v else if off = 0x10 then v &&& 0xFFFF#32 else v &&& 0xFF#32) ∧
      ∀ off' : Nat, off' ≠ off → readGlobal { s with cfg := c } off' = readGlobal s off'

/-- R22, R14: writes to read-only registers and unlisted offsets are ignored; unlisted offsets and
CMD read 0. -/
def Obligations.ReadOnlyAndUnlistedOffsetsIgnoreWrites : Prop :=
  ∀ (s : State) (off : Nat) (v : Word), s.params.base % 0x1000 = 0 → off % 4 = 0 → off < 0x100 →
    (off ≠ 0x04 ∧ off ≠ 0x08 ∧ off ≠ 0x0C ∧ off ≠ 0x10 →
      busWrite (s.params.base + off) 4 v s = .next { s with bus := .done }) ∧
    (0x30 < off ∨ off = 0x18 ∨ off = 0x1C → readGlobal s off = 0) ∧
    (∀ p : Nat, p < s.ports.length →
      (off = 0x04 ∨ 0x40 ≤ off →
        busWrite (portAddress s p off) 4 v s = .next { s with bus := .done }) ∧
      (off = 0 ∨ 0x40 ≤ off → readPort s p off = 0))

/-- R23, R18: every field of STATUS, LIFE by its number, the counts exact while they fit in 8 bits. -/
def Obligations.StatusShowsEveryField : Prop :=
  ∀ s : State, s.outq.length ≤ 255 → s.inq.length ≤ 255 →
    ((readGlobal s 0).extractLsb' 0 2).toNat =
      (if s.life = .off then 0 else if s.life = .ready then 1
       else if s.life = .enabled then 2 else 3) ∧
    (readGlobal s 0).getLsbD 2 = decide (s.engStep ≠ 0#4) ∧
    (readGlobal s 0).getLsbD 3 = s.evtPend ∧ (readGlobal s 0).getLsbD 4 = s.engFault ∧
    (readGlobal s 0).getLsbD 5 = s.flags.getLsbD 0 ∧
    (readGlobal s 0).getLsbD 6 = s.flags.getLsbD 1 ∧
    (readGlobal s 0).getLsbD 7 = s.flags.getLsbD 2 ∧
    (readGlobal s 0).extractLsb' 8 4 = s.engStep ∧ (readGlobal s 0).getLsbD 12 = s.woke ∧
    (readGlobal s 0).extractLsb' 13 3 = 0 ∧
    ((readGlobal s 0).extractLsb' 16 8).toNat = s.outq.length ∧
    ((readGlobal s 0).extractLsb' 24 8).toNat = s.inq.length

/-! ### Soundness of the machine -/

/-- The model's own stops (log entries 7 and 8), each where the spec says that nothing happens or no
rule applies: an address outside the window (R30), a port the block does not have (R132), S9 on an
empty OUTQ (R83), ENG_STEP 11 to 15 (R16). -/
def Obligations.StopsStandOutsideTheRules : Prop :=
  ∀ s : State,
    (∀ (addr width : Nat) (v : Word),
      (addr < s.params.base ∨ s.params.base + 0x100 * (s.ports.length + 1) ≤ addr) →
      busRead addr width s = .fault .addressNotDecoded ∧
      busWrite addr width v s = .fault .addressNotDecoded) ∧
    (∀ p : Nat, s.ports[p]? = none →
      (∀ c : Command, exec (c.instr p) s = .refused .noSuchPort) ∧
      (∀ (dlc : BitVec 7) (body : List Byte),
        exec (.pktStd p dlc body) s = .refused .noSuchPort ∧
        exec (.pktExt p dlc body) s = .refused .noSuchPort)) ∧
    (s.engStep = 9#4 → s.outq = [] → exec .s9Write s = .fault .popFromEmptyOutq) ∧
    (10 < s.engStep.toNat → engineTurn s = .fault .unreachablePosition)

/-- The machine starts sound. -/
def Obligations.ResetIsSound : Prop := sound State.reset = true

/-- Every step keeps the state sound. -/
def Obligations.EveryStepKeepsSoundness : Prop :=
  ∀ (s t : State), sound s = true → step s = .next t → sound t = true

/-- From a sound state a step stops only at a bus access the block does not decode. -/
def Obligations.OnlyUndecodedAccessStops : Prop :=
  ∀ s : State, sound s = true →
    (∃ t, step s = .next t) ∨
    (step s = .fault .addressNotDecoded ∧
      ∃ (addr width : Nat), ((takeInput s).1 = .busRead addr width ∨
        ∃ v, (takeInput s).1 = .busWrite addr width v) ∧ busTarget s addr = none)

/-- R152: the block is quiescent exactly when no agent of it has an enabled step. That the engine or a
port, scheduled then, leaves the state as it was is the model's choice, its reading of `hold` (log
entry 9, DEDUCED). -/
def Obligations.QuiescentMeansNothingEnabled : Prop :=
  ∀ s : State,
    (quiescent s = true ↔ engineEnabled s = false ∧ ∀ p, portEnabled s p = false) ∧
    (quiescent s = true → engineTurn s = .next s ∧ ∀ p, portTurn p s = s)
end

