-- ==== Sys2Proof/Laws/State.lean ====
section
/-! SUPPORT. One lemma per field per update, so that no later proof unfolds a record update. -/

namespace Sys2Proof.Machine

open Sys2Proof Config

/-! ### setPort -/

@[simp] theorem setPort_life (p : Nat) (x : Port) (s : State) : (setPort p x s).life = s.life := rfl
@[simp] theorem setPort_engStep (p : Nat) (x : Port) (s : State) :
    (setPort p x s).engStep = s.engStep := rfl
@[simp] theorem setPort_evtPend (p : Nat) (x : Port) (s : State) :
    (setPort p x s).evtPend = s.evtPend := rfl
@[simp] theorem setPort_engFault (p : Nat) (x : Port) (s : State) :
    (setPort p x s).engFault = s.engFault := rfl
@[simp] theorem setPort_flags (p : Nat) (x : Port) (s : State) :
    (setPort p x s).flags = s.flags := rfl
@[simp] theorem setPort_woke (p : Nat) (x : Port) (s : State) : (setPort p x s).woke = s.woke := rfl
@[simp] theorem setPort_outq (p : Nat) (x : Port) (s : State) : (setPort p x s).outq = s.outq := rfl
@[simp] theorem setPort_inq (p : Nat) (x : Port) (s : State) : (setPort p x s).inq = s.inq := rfl
@[simp] theorem setPort_stats (p : Nat) (x : Port) (s : State) :
    (setPort p x s).stats = s.stats := rfl
@[simp] theorem setPort_cfg (p : Nat) (x : Port) (s : State) : (setPort p x s).cfg = s.cfg := rfl
@[simp] theorem setPort_ports (p : Nat) (x : Port) (s : State) :
    (setPort p x s).ports = s.ports.set p x := rfl
@[simp] theorem setPort_rtrace (p : Nat) (x : Port) (s : State) :
    (setPort p x s).rtrace = s.rtrace := rfl
@[simp] theorem setPort_etrace (p : Nat) (x : Port) (s : State) :
    (setPort p x s).etrace = s.etrace := rfl
@[simp] theorem setPort_params (p : Nat) (x : Port) (s : State) :
    (setPort p x s).params = s.params := rfl
@[simp] theorem setPort_bus (p : Nat) (x : Port) (s : State) : (setPort p x s).bus = s.bus := rfl
@[simp] theorem setPort_inputs (p : Nat) (x : Port) (s : State) :
    (setPort p x s).inputs = s.inputs := rfl
@[simp] theorem setPort_answers (p : Nat) (x : Port) (s : State) :
    (setPort p x s).answers = s.answers := rfl
@[simp] theorem setPort_draws (p : Nat) (x : Port) (s : State) :
    (setPort p x s).draws = s.draws := rfl

/-! ### setResult -/

@[simp] theorem setResult_life (p : Nat) (c : ResultCode) (s : State) :
    (setResult p c s).life = s.life := rfl
@[simp] theorem setResult_engStep (p : Nat) (c : ResultCode) (s : State) :
    (setResult p c s).engStep = s.engStep := rfl
@[simp] theorem setResult_evtPend (p : Nat) (c : ResultCode) (s : State) :
    (setResult p c s).evtPend = s.evtPend := rfl
@[simp] theorem setResult_engFault (p : Nat) (c : ResultCode) (s : State) :
    (setResult p c s).engFault = s.engFault := rfl
@[simp] theorem setResult_flags (p : Nat) (c : ResultCode) (s : State) :
    (setResult p c s).flags = s.flags := rfl
@[simp] theorem setResult_woke (p : Nat) (c : ResultCode) (s : State) :
    (setResult p c s).woke = s.woke := rfl
@[simp] theorem setResult_outq (p : Nat) (c : ResultCode) (s : State) :
    (setResult p c s).outq = s.outq := rfl
@[simp] theorem setResult_inq (p : Nat) (c : ResultCode) (s : State) :
    (setResult p c s).inq = s.inq := rfl
@[simp] theorem setResult_stats (p : Nat) (c : ResultCode) (s : State) :
    (setResult p c s).stats = s.stats := rfl
@[simp] theorem setResult_cfg (p : Nat) (c : ResultCode) (s : State) :
    (setResult p c s).cfg = s.cfg := rfl
@[simp] theorem setResult_ports (p : Nat) (c : ResultCode) (s : State) :
    (setResult p c s).ports = s.ports.set p { portOf s p with result := codeOf c } := rfl
@[simp] theorem setResult_rtrace (p : Nat) (c : ResultCode) (s : State) :
    (setResult p c s).rtrace = s.rtrace := rfl
@[simp] theorem setResult_etrace (p : Nat) (c : ResultCode) (s : State) :
    (setResult p c s).etrace = s.etrace := rfl
@[simp] theorem setResult_params (p : Nat) (c : ResultCode) (s : State) :
    (setResult p c s).params = s.params := rfl
@[simp] theorem setResult_bus (p : Nat) (c : ResultCode) (s : State) :
    (setResult p c s).bus = s.bus := rfl
@[simp] theorem setResult_inputs (p : Nat) (c : ResultCode) (s : State) :
    (setResult p c s).inputs = s.inputs := rfl
@[simp] theorem setResult_answers (p : Nat) (c : ResultCode) (s : State) :
    (setResult p c s).answers = s.answers := rfl
@[simp] theorem setResult_draws (p : Nat) (c : ResultCode) (s : State) :
    (setResult p c s).draws = s.draws := rfl

/-! ### latchCommand -/

@[simp] theorem latchCommand_life (p : Nat) (c : Command) (o : Operands) (s : State) :
    (latchCommand p c o s).life = s.life := rfl
@[simp] theorem latchCommand_engStep (p : Nat) (c : Command) (o : Operands) (s : State) :
    (latchCommand p c o s).engStep = s.engStep := rfl
@[simp] theorem latchCommand_evtPend (p : Nat) (c : Command) (o : Operands) (s : State) :
    (latchCommand p c o s).evtPend = s.evtPend := rfl
@[simp] theorem latchCommand_engFault (p : Nat) (c : Command) (o : Operands) (s : State) :
    (latchCommand p c o s).engFault = s.engFault := rfl
@[simp] theorem latchCommand_flags (p : Nat) (c : Command) (o : Operands) (s : State) :
    (latchCommand p c o s).flags = s.flags := rfl
@[simp] theorem latchCommand_woke (p : Nat) (c : Command) (o : Operands) (s : State) :
    (latchCommand p c o s).woke = s.woke := rfl
@[simp] theorem latchCommand_outq (p : Nat) (c : Command) (o : Operands) (s : State) :
    (latchCommand p c o s).outq = s.outq := rfl
@[simp] theorem latchCommand_inq (p : Nat) (c : Command) (o : Operands) (s : State) :
    (latchCommand p c o s).inq = s.inq := rfl
@[simp] theorem latchCommand_stats (p : Nat) (c : Command) (o : Operands) (s : State) :
    (latchCommand p c o s).stats = s.stats := rfl
@[simp] theorem latchCommand_cfg (p : Nat) (c : Command) (o : Operands) (s : State) :
    (latchCommand p c o s).cfg = s.cfg := rfl
@[simp] theorem latchCommand_ports (p : Nat) (c : Command) (o : Operands) (s : State) :
    (latchCommand p c o s).ports = s.ports.set p
      { portOf s p with pend := some ⟨c, o⟩, result := codeOf .pending } := rfl
@[simp] theorem latchCommand_rtrace (p : Nat) (c : Command) (o : Operands) (s : State) :
    (latchCommand p c o s).rtrace = s.rtrace := rfl
@[simp] theorem latchCommand_etrace (p : Nat) (c : Command) (o : Operands) (s : State) :
    (latchCommand p c o s).etrace = s.etrace := rfl
@[simp] theorem latchCommand_params (p : Nat) (c : Command) (o : Operands) (s : State) :
    (latchCommand p c o s).params = s.params := rfl
@[simp] theorem latchCommand_bus (p : Nat) (c : Command) (o : Operands) (s : State) :
    (latchCommand p c o s).bus = s.bus := rfl
@[simp] theorem latchCommand_inputs (p : Nat) (c : Command) (o : Operands) (s : State) :
    (latchCommand p c o s).inputs = s.inputs := rfl
@[simp] theorem latchCommand_answers (p : Nat) (c : Command) (o : Operands) (s : State) :
    (latchCommand p c o s).answers = s.answers := rfl
@[simp] theorem latchCommand_draws (p : Nat) (c : Command) (o : Operands) (s : State) :
    (latchCommand p c o s).draws = s.draws := rfl

/-! ### clearPending -/

@[simp] theorem clearPending_life (p : Nat) (s : State) : (clearPending p s).life = s.life := rfl
@[simp] theorem clearPending_engStep (p : Nat) (s : State) :
    (clearPending p s).engStep = s.engStep := rfl
@[simp] theorem clearPending_evtPend (p : Nat) (s : State) :
    (clearPending p s).evtPend = s.evtPend := rfl
@[simp] theorem clearPending_engFault (p : Nat) (s : State) :
    (clearPending p s).engFault = s.engFault := rfl
@[simp] theorem clearPending_flags (p : Nat) (s : State) : (clearPending p s).flags = s.flags := rfl
@[simp] theorem clearPending_woke (p : Nat) (s : State) : (clearPending p s).woke = s.woke := rfl
@[simp] theorem clearPending_outq (p : Nat) (s : State) : (clearPending p s).outq = s.outq := rfl
@[simp] theorem clearPending_inq (p : Nat) (s : State) : (clearPending p s).inq = s.inq := rfl
@[simp] theorem clearPending_stats (p : Nat) (s : State) : (clearPending p s).stats = s.stats := rfl
@[simp] theorem clearPending_cfg (p : Nat) (s : State) : (clearPending p s).cfg = s.cfg := rfl
@[simp] theorem clearPending_ports (p : Nat) (s : State) :
    (clearPending p s).ports = s.ports.set p { portOf s p with pend := none } := rfl
@[simp] theorem clearPending_rtrace (p : Nat) (s : State) :
    (clearPending p s).rtrace = s.rtrace := rfl
@[simp] theorem clearPending_etrace (p : Nat) (s : State) :
    (clearPending p s).etrace = s.etrace := rfl
@[simp] theorem clearPending_params (p : Nat) (s : State) :
    (clearPending p s).params = s.params := rfl
@[simp] theorem clearPending_bus (p : Nat) (s : State) : (clearPending p s).bus = s.bus := rfl
@[simp] theorem clearPending_inputs (p : Nat) (s : State) :
    (clearPending p s).inputs = s.inputs := rfl
@[simp] theorem clearPending_answers (p : Nat) (s : State) :
    (clearPending p s).answers = s.answers := rfl
@[simp] theorem clearPending_draws (p : Nat) (s : State) : (clearPending p s).draws = s.draws := rfl

/-! ### deliver -/

@[simp] theorem deliver_life (p : Nat) (r : Except ResultCode Frame) (s : State) :
    (deliver p r s).life = s.life := by
  unfold deliver; split <;> rfl
@[simp] theorem deliver_engStep (p : Nat) (r : Except ResultCode Frame) (s : State) :
    (deliver p r s).engStep = s.engStep := by
  unfold deliver; split <;> rfl
@[simp] theorem deliver_evtPend (p : Nat) (r : Except ResultCode Frame) (s : State) :
    (deliver p r s).evtPend = s.evtPend := by
  unfold deliver; split <;> rfl
@[simp] theorem deliver_engFault (p : Nat) (r : Except ResultCode Frame) (s : State) :
    (deliver p r s).engFault = s.engFault := by
  unfold deliver; split <;> rfl
@[simp] theorem deliver_flags (p : Nat) (r : Except ResultCode Frame) (s : State) :
    (deliver p r s).flags = s.flags := by
  unfold deliver; split <;> rfl
@[simp] theorem deliver_woke (p : Nat) (r : Except ResultCode Frame) (s : State) :
    (deliver p r s).woke = s.woke := by
  unfold deliver; split <;> rfl
@[simp] theorem deliver_outq (p : Nat) (r : Except ResultCode Frame) (s : State) :
    (deliver p r s).outq = s.outq := by
  unfold deliver; split <;> rfl
@[simp] theorem deliver_inq (p : Nat) (r : Except ResultCode Frame) (s : State) :
    (deliver p r s).inq = s.inq := by
  unfold deliver; split <;> rfl
@[simp] theorem deliver_stats (p : Nat) (r : Except ResultCode Frame) (s : State) :
    (deliver p r s).stats = s.stats := by
  unfold deliver; split <;> rfl
@[simp] theorem deliver_cfg (p : Nat) (r : Except ResultCode Frame) (s : State) :
    (deliver p r s).cfg = s.cfg := by
  unfold deliver; split <;> rfl
@[simp] theorem deliver_rtrace (p : Nat) (r : Except ResultCode Frame) (s : State) :
    (deliver p r s).rtrace = s.rtrace := by
  unfold deliver; split <;> rfl
@[simp] theorem deliver_etrace (p : Nat) (r : Except ResultCode Frame) (s : State) :
    (deliver p r s).etrace = s.etrace := by
  unfold deliver; split <;> rfl
@[simp] theorem deliver_params (p : Nat) (r : Except ResultCode Frame) (s : State) :
    (deliver p r s).params = s.params := by
  unfold deliver; split <;> rfl
@[simp] theorem deliver_bus (p : Nat) (r : Except ResultCode Frame) (s : State) :
    (deliver p r s).bus = s.bus := by
  unfold deliver; split <;> rfl
@[simp] theorem deliver_inputs (p : Nat) (r : Except ResultCode Frame) (s : State) :
    (deliver p r s).inputs = s.inputs := by
  unfold deliver; split <;> rfl
@[simp] theorem deliver_answers (p : Nat) (r : Except ResultCode Frame) (s : State) :
    (deliver p r s).answers = s.answers := by
  unfold deliver; split <;> rfl
@[simp] theorem deliver_draws (p : Nat) (r : Except ResultCode Frame) (s : State) :
    (deliver p r s).draws = s.draws := by
  unfold deliver; split <;> rfl

/-! ### logRadio -/

@[simp] theorem logRadio_life (r : RadioRequest) (s : State) : (logRadio r s).life = s.life := rfl
@[simp] theorem logRadio_engStep (r : RadioRequest) (s : State) :
    (logRadio r s).engStep = s.engStep := rfl
@[simp] theorem logRadio_evtPend (r : RadioRequest) (s : State) :
    (logRadio r s).evtPend = s.evtPend := rfl
@[simp] theorem logRadio_engFault (r : RadioRequest) (s : State) :
    (logRadio r s).engFault = s.engFault := rfl
@[simp] theorem logRadio_flags (r : RadioRequest) (s : State) :
    (logRadio r s).flags = s.flags := rfl
@[simp] theorem logRadio_woke (r : RadioRequest) (s : State) : (logRadio r s).woke = s.woke := rfl
@[simp] theorem logRadio_outq (r : RadioRequest) (s : State) : (logRadio r s).outq = s.outq := rfl
@[simp] theorem logRadio_inq (r : RadioRequest) (s : State) : (logRadio r s).inq = s.inq := rfl
@[simp] theorem logRadio_stats (r : RadioRequest) (s : State) :
    (logRadio r s).stats = s.stats := rfl
@[simp] theorem logRadio_cfg (r : RadioRequest) (s : State) : (logRadio r s).cfg = s.cfg := rfl
@[simp] theorem logRadio_ports (r : RadioRequest) (s : State) :
    (logRadio r s).ports = s.ports := rfl
@[simp] theorem logRadio_rtrace (r : RadioRequest) (s : State) :
    (logRadio r s).rtrace = s.rtrace ++ [r] := rfl
@[simp] theorem logRadio_etrace (r : RadioRequest) (s : State) :
    (logRadio r s).etrace = s.etrace := rfl
@[simp] theorem logRadio_params (r : RadioRequest) (s : State) :
    (logRadio r s).params = s.params := rfl
@[simp] theorem logRadio_bus (r : RadioRequest) (s : State) : (logRadio r s).bus = s.bus := rfl
@[simp] theorem logRadio_inputs (r : RadioRequest) (s : State) :
    (logRadio r s).inputs = s.inputs := rfl
@[simp] theorem logRadio_answers (r : RadioRequest) (s : State) :
    (logRadio r s).answers = s.answers := rfl
@[simp] theorem logRadio_draws (r : RadioRequest) (s : State) :
    (logRadio r s).draws = s.draws := rfl

/-! ### emit -/

@[simp] theorem emit_life (e : OutEvent) (s : State) : (emit e s).life = s.life := rfl
@[simp] theorem emit_engStep (e : OutEvent) (s : State) : (emit e s).engStep = s.engStep := rfl
@[simp] theorem emit_evtPend (e : OutEvent) (s : State) : (emit e s).evtPend = s.evtPend := rfl
@[simp] theorem emit_engFault (e : OutEvent) (s : State) : (emit e s).engFault = s.engFault := rfl
@[simp] theorem emit_flags (e : OutEvent) (s : State) : (emit e s).flags = s.flags := rfl
@[simp] theorem emit_woke (e : OutEvent) (s : State) : (emit e s).woke = s.woke := rfl
@[simp] theorem emit_outq (e : OutEvent) (s : State) : (emit e s).outq = s.outq := rfl
@[simp] theorem emit_inq (e : OutEvent) (s : State) : (emit e s).inq = s.inq := rfl
@[simp] theorem emit_stats (e : OutEvent) (s : State) : (emit e s).stats = s.stats := rfl
@[simp] theorem emit_cfg (e : OutEvent) (s : State) : (emit e s).cfg = s.cfg := rfl
@[simp] theorem emit_ports (e : OutEvent) (s : State) : (emit e s).ports = s.ports := rfl
@[simp] theorem emit_rtrace (e : OutEvent) (s : State) : (emit e s).rtrace = s.rtrace := rfl
@[simp] theorem emit_etrace (e : OutEvent) (s : State) : (emit e s).etrace = s.etrace ++ [e] := rfl
@[simp] theorem emit_params (e : OutEvent) (s : State) : (emit e s).params = s.params := rfl
@[simp] theorem emit_bus (e : OutEvent) (s : State) : (emit e s).bus = s.bus := rfl
@[simp] theorem emit_inputs (e : OutEvent) (s : State) : (emit e s).inputs = s.inputs := rfl
@[simp] theorem emit_answers (e : OutEvent) (s : State) : (emit e s).answers = s.answers := rfl
@[simp] theorem emit_draws (e : OutEvent) (s : State) : (emit e s).draws = s.draws := rfl

/-! ### goto -/

@[simp] theorem goto_life (k : BitVec 4) (s : State) : (goto k s).life = s.life := rfl
@[simp] theorem goto_engStep (k : BitVec 4) (s : State) : (goto k s).engStep = k := rfl
@[simp] theorem goto_evtPend (k : BitVec 4) (s : State) : (goto k s).evtPend = s.evtPend := rfl
@[simp] theorem goto_engFault (k : BitVec 4) (s : State) : (goto k s).engFault = s.engFault := rfl
@[simp] theorem goto_flags (k : BitVec 4) (s : State) : (goto k s).flags = s.flags := rfl
@[simp] theorem goto_woke (k : BitVec 4) (s : State) : (goto k s).woke = s.woke := rfl
@[simp] theorem goto_outq (k : BitVec 4) (s : State) : (goto k s).outq = s.outq := rfl
@[simp] theorem goto_inq (k : BitVec 4) (s : State) : (goto k s).inq = s.inq := rfl
@[simp] theorem goto_stats (k : BitVec 4) (s : State) : (goto k s).stats = s.stats := rfl
@[simp] theorem goto_cfg (k : BitVec 4) (s : State) : (goto k s).cfg = s.cfg := rfl
@[simp] theorem goto_ports (k : BitVec 4) (s : State) : (goto k s).ports = s.ports := rfl
@[simp] theorem goto_rtrace (k : BitVec 4) (s : State) : (goto k s).rtrace = s.rtrace := rfl
@[simp] theorem goto_etrace (k : BitVec 4) (s : State) : (goto k s).etrace = s.etrace := rfl
@[simp] theorem goto_params (k : BitVec 4) (s : State) : (goto k s).params = s.params := rfl
@[simp] theorem goto_bus (k : BitVec 4) (s : State) : (goto k s).bus = s.bus := rfl
@[simp] theorem goto_inputs (k : BitVec 4) (s : State) : (goto k s).inputs = s.inputs := rfl
@[simp] theorem goto_answers (k : BitVec 4) (s : State) : (goto k s).answers = s.answers := rfl
@[simp] theorem goto_draws (k : BitVec 4) (s : State) : (goto k s).draws = s.draws := rfl

/-! ### startRun -/

@[simp] theorem startRun_life (s : State) : (startRun s).life = s.life := rfl
@[simp] theorem startRun_engStep (s : State) : (startRun s).engStep = 1#4 := rfl
@[simp] theorem startRun_evtPend (s : State) : (startRun s).evtPend = false := rfl
@[simp] theorem startRun_engFault (s : State) : (startRun s).engFault = s.engFault := rfl
@[simp] theorem startRun_flags (s : State) : (startRun s).flags = s.flags := rfl
@[simp] theorem startRun_woke (s : State) : (startRun s).woke = false := rfl
@[simp] theorem startRun_outq (s : State) : (startRun s).outq = s.outq := rfl
@[simp] theorem startRun_inq (s : State) : (startRun s).inq = s.inq := rfl
@[simp] theorem startRun_stats (s : State) : (startRun s).stats = s.stats := rfl
@[simp] theorem startRun_cfg (s : State) : (startRun s).cfg = s.cfg := rfl
@[simp] theorem startRun_ports (s : State) : (startRun s).ports = s.ports := rfl
@[simp] theorem startRun_rtrace (s : State) : (startRun s).rtrace = s.rtrace := rfl
@[simp] theorem startRun_etrace (s : State) : (startRun s).etrace = s.etrace := rfl
@[simp] theorem startRun_params (s : State) : (startRun s).params = s.params := rfl
@[simp] theorem startRun_bus (s : State) : (startRun s).bus = s.bus := rfl
@[simp] theorem startRun_inputs (s : State) : (startRun s).inputs = s.inputs := rfl
@[simp] theorem startRun_answers (s : State) : (startRun s).answers = s.answers := rfl
@[simp] theorem startRun_draws (s : State) : (startRun s).draws = s.draws := rfl

/-! ### endRun -/

@[simp] theorem endRun_life (s : State) : (endRun s).life = s.life := rfl
@[simp] theorem endRun_engStep (s : State) : (endRun s).engStep = 0#4 := rfl
@[simp] theorem endRun_evtPend (s : State) : (endRun s).evtPend = s.evtPend := rfl
@[simp] theorem endRun_engFault (s : State) : (endRun s).engFault = s.engFault := rfl
@[simp] theorem endRun_flags (s : State) : (endRun s).flags = s.flags := rfl
@[simp] theorem endRun_woke (s : State) : (endRun s).woke = false := rfl
@[simp] theorem endRun_outq (s : State) : (endRun s).outq = s.outq := rfl
@[simp] theorem endRun_inq (s : State) : (endRun s).inq = s.inq := rfl
@[simp] theorem endRun_stats (s : State) : (endRun s).stats = s.stats := rfl
@[simp] theorem endRun_cfg (s : State) : (endRun s).cfg = s.cfg := rfl
@[simp] theorem endRun_ports (s : State) : (endRun s).ports = s.ports := rfl
@[simp] theorem endRun_rtrace (s : State) : (endRun s).rtrace = s.rtrace := rfl
@[simp] theorem endRun_etrace (s : State) : (endRun s).etrace = s.etrace := rfl
@[simp] theorem endRun_params (s : State) : (endRun s).params = s.params := rfl
@[simp] theorem endRun_bus (s : State) : (endRun s).bus = s.bus := rfl
@[simp] theorem endRun_inputs (s : State) : (endRun s).inputs = s.inputs := rfl
@[simp] theorem endRun_answers (s : State) : (endRun s).answers = s.answers := rfl
@[simp] theorem endRun_draws (s : State) : (endRun s).draws = s.draws := rfl

/-! ### faultRun -/

@[simp] theorem faultRun_life (s : State) : (faultRun s).life = s.life := rfl
@[simp] theorem faultRun_engStep (s : State) : (faultRun s).engStep = 0#4 := rfl
@[simp] theorem faultRun_evtPend (s : State) : (faultRun s).evtPend = s.evtPend := rfl
@[simp] theorem faultRun_engFault (s : State) : (faultRun s).engFault = true := rfl
@[simp] theorem faultRun_flags (s : State) : (faultRun s).flags = s.flags := rfl
@[simp] theorem faultRun_woke (s : State) : (faultRun s).woke = false := rfl
@[simp] theorem faultRun_outq (s : State) : (faultRun s).outq = s.outq := rfl
@[simp] theorem faultRun_inq (s : State) : (faultRun s).inq = s.inq := rfl
@[simp] theorem faultRun_stats (s : State) : (faultRun s).stats = s.stats := rfl
@[simp] theorem faultRun_cfg (s : State) : (faultRun s).cfg = s.cfg := rfl
@[simp] theorem faultRun_ports (s : State) : (faultRun s).ports = s.ports := rfl
@[simp] theorem faultRun_rtrace (s : State) : (faultRun s).rtrace = s.rtrace := rfl
@[simp] theorem faultRun_etrace (s : State) : (faultRun s).etrace = s.etrace := rfl
@[simp] theorem faultRun_params (s : State) : (faultRun s).params = s.params := rfl
@[simp] theorem faultRun_bus (s : State) : (faultRun s).bus = s.bus := rfl
@[simp] theorem faultRun_inputs (s : State) : (faultRun s).inputs = s.inputs := rfl
@[simp] theorem faultRun_answers (s : State) : (faultRun s).answers = s.answers := rfl
@[simp] theorem faultRun_draws (s : State) : (faultRun s).draws = s.draws := rfl

/-! ### escalate -/

@[simp] theorem escalate_life (s : State) : (escalate s).life = .fatal := rfl
@[simp] theorem escalate_engStep (s : State) : (escalate s).engStep = s.engStep := rfl
@[simp] theorem escalate_evtPend (s : State) : (escalate s).evtPend = s.evtPend := rfl
@[simp] theorem escalate_engFault (s : State) : (escalate s).engFault = s.engFault := rfl
@[simp] theorem escalate_flags (s : State) : (escalate s).flags = s.flags := rfl
@[simp] theorem escalate_woke (s : State) : (escalate s).woke = s.woke := rfl
@[simp] theorem escalate_outq (s : State) : (escalate s).outq = s.outq := rfl
@[simp] theorem escalate_inq (s : State) : (escalate s).inq = s.inq := rfl
@[simp] theorem escalate_stats (s : State) : (escalate s).stats = s.stats := rfl
@[simp] theorem escalate_cfg (s : State) : (escalate s).cfg = s.cfg := rfl
@[simp] theorem escalate_ports (s : State) : (escalate s).ports = s.ports := rfl
@[simp] theorem escalate_rtrace (s : State) : (escalate s).rtrace = s.rtrace := rfl
@[simp] theorem escalate_etrace (s : State) :
    (escalate s).etrace = s.etrace ++ [.fatalResetReq] := rfl
@[simp] theorem escalate_params (s : State) : (escalate s).params = s.params := rfl
@[simp] theorem escalate_bus (s : State) : (escalate s).bus = s.bus := rfl
@[simp] theorem escalate_inputs (s : State) : (escalate s).inputs = s.inputs := rfl
@[simp] theorem escalate_answers (s : State) : (escalate s).answers = s.answers := rfl
@[simp] theorem escalate_draws (s : State) : (escalate s).draws = s.draws := rfl

/-! ### respond -/

@[simp] theorem respond_life (r : BusResponse) (s : State) : (respond r s).life = s.life := rfl
@[simp] theorem respond_engStep (r : BusResponse) (s : State) :
    (respond r s).engStep = s.engStep := rfl
@[simp] theorem respond_evtPend (r : BusResponse) (s : State) :
    (respond r s).evtPend = s.evtPend := rfl
@[simp] theorem respond_engFault (r : BusResponse) (s : State) :
    (respond r s).engFault = s.engFault := rfl
@[simp] theorem respond_flags (r : BusResponse) (s : State) : (respond r s).flags = s.flags := rfl
@[simp] theorem respond_woke (r : BusResponse) (s : State) : (respond r s).woke = s.woke := rfl
@[simp] theorem respond_outq (r : BusResponse) (s : State) : (respond r s).outq = s.outq := rfl
@[simp] theorem respond_inq (r : BusResponse) (s : State) : (respond r s).inq = s.inq := rfl
@[simp] theorem respond_stats (r : BusResponse) (s : State) : (respond r s).stats = s.stats := rfl
@[simp] theorem respond_cfg (r : BusResponse) (s : State) : (respond r s).cfg = s.cfg := rfl
@[simp] theorem respond_ports (r : BusResponse) (s : State) : (respond r s).ports = s.ports := rfl
@[simp] theorem respond_rtrace (r : BusResponse) (s : State) :
    (respond r s).rtrace = s.rtrace := rfl
@[simp] theorem respond_etrace (r : BusResponse) (s : State) :
    (respond r s).etrace = s.etrace := rfl
@[simp] theorem respond_params (r : BusResponse) (s : State) :
    (respond r s).params = s.params := rfl
@[simp] theorem respond_bus (r : BusResponse) (s : State) : (respond r s).bus = r := rfl
@[simp] theorem respond_inputs (r : BusResponse) (s : State) :
    (respond r s).inputs = s.inputs := rfl
@[simp] theorem respond_answers (r : BusResponse) (s : State) :
    (respond r s).answers = s.answers := rfl
@[simp] theorem respond_draws (r : BusResponse) (s : State) : (respond r s).draws = s.draws := rfl

/-! ### draw -/

@[simp] theorem draw_life {α : Type} (kind : Answer → Option α) (free : Nat → α) (s : State) :
    (draw kind free s).2.life = s.life := by
  unfold draw; split <;> rfl
@[simp] theorem draw_engStep {α : Type} (kind : Answer → Option α) (free : Nat → α) (s : State) :
    (draw kind free s).2.engStep = s.engStep := by
  unfold draw; split <;> rfl
@[simp] theorem draw_evtPend {α : Type} (kind : Answer → Option α) (free : Nat → α) (s : State) :
    (draw kind free s).2.evtPend = s.evtPend := by
  unfold draw; split <;> rfl
@[simp] theorem draw_engFault {α : Type} (kind : Answer → Option α) (free : Nat → α) (s : State) :
    (draw kind free s).2.engFault = s.engFault := by
  unfold draw; split <;> rfl
@[simp] theorem draw_flags {α : Type} (kind : Answer → Option α) (free : Nat → α) (s : State) :
    (draw kind free s).2.flags = s.flags := by
  unfold draw; split <;> rfl
@[simp] theorem draw_woke {α : Type} (kind : Answer → Option α) (free : Nat → α) (s : State) :
    (draw kind free s).2.woke = s.woke := by
  unfold draw; split <;> rfl
@[simp] theorem draw_outq {α : Type} (kind : Answer → Option α) (free : Nat → α) (s : State) :
    (draw kind free s).2.outq = s.outq := by
  unfold draw; split <;> rfl
@[simp] theorem draw_inq {α : Type} (kind : Answer → Option α) (free : Nat → α) (s : State) :
    (draw kind free s).2.inq = s.inq := by
  unfold draw; split <;> rfl
@[simp] theorem draw_stats {α : Type} (kind : Answer → Option α) (free : Nat → α) (s : State) :
    (draw kind free s).2.stats = s.stats := by
  unfold draw; split <;> rfl
@[simp] theorem draw_cfg {α : Type} (kind : Answer → Option α) (free : Nat → α) (s : State) :
    (draw kind free s).2.cfg = s.cfg := by
  unfold draw; split <;> rfl
@[simp] theorem draw_ports {α : Type} (kind : Answer → Option α) (free : Nat → α) (s : State) :
    (draw kind free s).2.ports = s.ports := by
  unfold draw; split <;> rfl
@[simp] theorem draw_rtrace {α : Type} (kind : Answer → Option α) (free : Nat → α) (s : State) :
    (draw kind free s).2.rtrace = s.rtrace := by
  unfold draw; split <;> rfl
@[simp] theorem draw_etrace {α : Type} (kind : Answer → Option α) (free : Nat → α) (s : State) :
    (draw kind free s).2.etrace = s.etrace := by
  unfold draw; split <;> rfl
@[simp] theorem draw_params {α : Type} (kind : Answer → Option α) (free : Nat → α) (s : State) :
    (draw kind free s).2.params = s.params := by
  unfold draw; split <;> rfl
@[simp] theorem draw_bus {α : Type} (kind : Answer → Option α) (free : Nat → α) (s : State) :
    (draw kind free s).2.bus = s.bus := by
  unfold draw; split <;> rfl
@[simp] theorem draw_inputs {α : Type} (kind : Answer → Option α) (free : Nat → α) (s : State) :
    (draw kind free s).2.inputs = s.inputs := by
  unfold draw; split <;> rfl

/-! ### askProbe -/

@[simp] theorem askProbe_life (s : State) : (askProbe s).2.life = s.life := by
  simp [askProbe]
@[simp] theorem askProbe_engStep (s : State) :
    (askProbe s).2.engStep = s.engStep := by
  simp [askProbe]
@[simp] theorem askProbe_evtPend (s : State) :
    (askProbe s).2.evtPend = s.evtPend := by
  simp [askProbe]
@[simp] theorem askProbe_engFault (s : State) :
    (askProbe s).2.engFault = s.engFault := by
  simp [askProbe]
@[simp] theorem askProbe_flags (s : State) :
    (askProbe s).2.flags = s.flags := by
  simp [askProbe]
@[simp] theorem askProbe_woke (s : State) : (askProbe s).2.woke = s.woke := by
  simp [askProbe]
@[simp] theorem askProbe_outq (s : State) : (askProbe s).2.outq = s.outq := by
  simp [askProbe]
@[simp] theorem askProbe_inq (s : State) : (askProbe s).2.inq = s.inq := by
  simp [askProbe]
@[simp] theorem askProbe_stats (s : State) :
    (askProbe s).2.stats = s.stats := by
  simp [askProbe]
@[simp] theorem askProbe_cfg (s : State) : (askProbe s).2.cfg = s.cfg := by
  simp [askProbe]
@[simp] theorem askProbe_ports (s : State) :
    (askProbe s).2.ports = s.ports := by
  simp [askProbe]
@[simp] theorem askProbe_rtrace (s : State) :
    (askProbe s).2.rtrace = s.rtrace ++ [.probe] := by
  simp [askProbe]
@[simp] theorem askProbe_etrace (s : State) :
    (askProbe s).2.etrace = s.etrace := by
  simp [askProbe]
@[simp] theorem askProbe_params (s : State) :
    (askProbe s).2.params = s.params := by
  simp [askProbe]
@[simp] theorem askProbe_bus (s : State) : (askProbe s).2.bus = s.bus := by
  simp [askProbe]
@[simp] theorem askProbe_inputs (s : State) :
    (askProbe s).2.inputs = s.inputs := by
  simp [askProbe]

/-! ### askFlags -/

@[simp] theorem askFlags_life (s : State) : (askFlags s).2.life = s.life := by
  simp [askFlags]
@[simp] theorem askFlags_engStep (s : State) :
    (askFlags s).2.engStep = s.engStep := by
  simp [askFlags]
@[simp] theorem askFlags_evtPend (s : State) :
    (askFlags s).2.evtPend = s.evtPend := by
  simp [askFlags]
@[simp] theorem askFlags_engFault (s : State) :
    (askFlags s).2.engFault = s.engFault := by
  simp [askFlags]
@[simp] theorem askFlags_flags (s : State) :
    (askFlags s).2.flags = s.flags := by
  simp [askFlags]
@[simp] theorem askFlags_woke (s : State) : (askFlags s).2.woke = s.woke := by
  simp [askFlags]
@[simp] theorem askFlags_outq (s : State) : (askFlags s).2.outq = s.outq := by
  simp [askFlags]
@[simp] theorem askFlags_inq (s : State) : (askFlags s).2.inq = s.inq := by
  simp [askFlags]
@[simp] theorem askFlags_stats (s : State) :
    (askFlags s).2.stats = s.stats := by
  simp [askFlags]
@[simp] theorem askFlags_cfg (s : State) : (askFlags s).2.cfg = s.cfg := by
  simp [askFlags]
@[simp] theorem askFlags_ports (s : State) :
    (askFlags s).2.ports = s.ports := by
  simp [askFlags]
@[simp] theorem askFlags_rtrace (s : State) :
    (askFlags s).2.rtrace = s.rtrace ++ [.clearStatus] := by
  simp [askFlags]
@[simp] theorem askFlags_etrace (s : State) :
    (askFlags s).2.etrace = s.etrace := by
  simp [askFlags]
@[simp] theorem askFlags_params (s : State) :
    (askFlags s).2.params = s.params := by
  simp [askFlags]
@[simp] theorem askFlags_bus (s : State) : (askFlags s).2.bus = s.bus := by
  simp [askFlags]
@[simp] theorem askFlags_inputs (s : State) :
    (askFlags s).2.inputs = s.inputs := by
  simp [askFlags]

/-! ### askCount -/

@[simp] theorem askCount_life (s : State) : (askCount s).2.life = s.life := by
  simp [askCount]
@[simp] theorem askCount_engStep (s : State) :
    (askCount s).2.engStep = s.engStep := by
  simp [askCount]
@[simp] theorem askCount_evtPend (s : State) :
    (askCount s).2.evtPend = s.evtPend := by
  simp [askCount]
@[simp] theorem askCount_engFault (s : State) :
    (askCount s).2.engFault = s.engFault := by
  simp [askCount]
@[simp] theorem askCount_flags (s : State) :
    (askCount s).2.flags = s.flags := by
  simp [askCount]
@[simp] theorem askCount_woke (s : State) : (askCount s).2.woke = s.woke := by
  simp [askCount]
@[simp] theorem askCount_outq (s : State) : (askCount s).2.outq = s.outq := by
  simp [askCount]
@[simp] theorem askCount_inq (s : State) : (askCount s).2.inq = s.inq := by
  simp [askCount]
@[simp] theorem askCount_stats (s : State) :
    (askCount s).2.stats = s.stats := by
  simp [askCount]
@[simp] theorem askCount_cfg (s : State) : (askCount s).2.cfg = s.cfg := by
  simp [askCount]
@[simp] theorem askCount_ports (s : State) :
    (askCount s).2.ports = s.ports := by
  simp [askCount]
@[simp] theorem askCount_rtrace (s : State) :
    (askCount s).2.rtrace = s.rtrace ++ [.rxPending] := by
  simp [askCount]
@[simp] theorem askCount_etrace (s : State) :
    (askCount s).2.etrace = s.etrace := by
  simp [askCount]
@[simp] theorem askCount_params (s : State) :
    (askCount s).2.params = s.params := by
  simp [askCount]
@[simp] theorem askCount_bus (s : State) : (askCount s).2.bus = s.bus := by
  simp [askCount]
@[simp] theorem askCount_inputs (s : State) :
    (askCount s).2.inputs = s.inputs := by
  simp [askCount]

/-! ### askPacket -/

@[simp] theorem askPacket_life (s : State) :
    (askPacket s).2.life = s.life := by
  simp [askPacket]
@[simp] theorem askPacket_engStep (s : State) :
    (askPacket s).2.engStep = s.engStep := by
  simp [askPacket]
@[simp] theorem askPacket_evtPend (s : State) :
    (askPacket s).2.evtPend = s.evtPend := by
  simp [askPacket]
@[simp] theorem askPacket_engFault (s : State) :
    (askPacket s).2.engFault = s.engFault := by
  simp [askPacket]
@[simp] theorem askPacket_flags (s : State) :
    (askPacket s).2.flags = s.flags := by
  simp [askPacket]
@[simp] theorem askPacket_woke (s : State) :
    (askPacket s).2.woke = s.woke := by
  simp [askPacket]
@[simp] theorem askPacket_outq (s : State) :
    (askPacket s).2.outq = s.outq := by
  simp [askPacket]
@[simp] theorem askPacket_inq (s : State) : (askPacket s).2.inq = s.inq := by
  simp [askPacket]
@[simp] theorem askPacket_stats (s : State) :
    (askPacket s).2.stats = s.stats := by
  simp [askPacket]
@[simp] theorem askPacket_cfg (s : State) : (askPacket s).2.cfg = s.cfg := by
  simp [askPacket]
@[simp] theorem askPacket_ports (s : State) :
    (askPacket s).2.ports = s.ports := by
  simp [askPacket]
@[simp] theorem askPacket_rtrace (s : State) :
    (askPacket s).2.rtrace = s.rtrace ++ [.read] := by
  simp [askPacket]
@[simp] theorem askPacket_etrace (s : State) :
    (askPacket s).2.etrace = s.etrace := by
  simp [askPacket]
@[simp] theorem askPacket_params (s : State) :
    (askPacket s).2.params = s.params := by
  simp [askPacket]
@[simp] theorem askPacket_bus (s : State) : (askPacket s).2.bus = s.bus := by
  simp [askPacket]
@[simp] theorem askPacket_inputs (s : State) :
    (askPacket s).2.inputs = s.inputs := by
  simp [askPacket]

/-! ### askChannel -/

@[simp] theorem askChannel_life (s : State) :
    (askChannel s).2.life = s.life := by
  simp [askChannel]
@[simp] theorem askChannel_engStep (s : State) :
    (askChannel s).2.engStep = s.engStep := by
  simp [askChannel]
@[simp] theorem askChannel_evtPend (s : State) :
    (askChannel s).2.evtPend = s.evtPend := by
  simp [askChannel]
@[simp] theorem askChannel_engFault (s : State) :
    (askChannel s).2.engFault = s.engFault := by
  simp [askChannel]
@[simp] theorem askChannel_flags (s : State) :
    (askChannel s).2.flags = s.flags := by
  simp [askChannel]
@[simp] theorem askChannel_woke (s : State) :
    (askChannel s).2.woke = s.woke := by
  simp [askChannel]
@[simp] theorem askChannel_outq (s : State) :
    (askChannel s).2.outq = s.outq := by
  simp [askChannel]
@[simp] theorem askChannel_inq (s : State) :
    (askChannel s).2.inq = s.inq := by
  simp [askChannel]
@[simp] theorem askChannel_stats (s : State) :
    (askChannel s).2.stats = s.stats := by
  simp [askChannel]
@[simp] theorem askChannel_cfg (s : State) :
    (askChannel s).2.cfg = s.cfg := by
  simp [askChannel]
@[simp] theorem askChannel_ports (s : State) :
    (askChannel s).2.ports = s.ports := by
  simp [askChannel]
@[simp] theorem askChannel_rtrace (s : State) :
    (askChannel s).2.rtrace = s.rtrace ++ [.channelAvailable] := by
  simp [askChannel]
@[simp] theorem askChannel_etrace (s : State) :
    (askChannel s).2.etrace = s.etrace := by
  simp [askChannel]
@[simp] theorem askChannel_params (s : State) :
    (askChannel s).2.params = s.params := by
  simp [askChannel]
@[simp] theorem askChannel_bus (s : State) :
    (askChannel s).2.bus = s.bus := by
  simp [askChannel]
@[simp] theorem askChannel_inputs (s : State) :
    (askChannel s).2.inputs = s.inputs := by
  simp [askChannel]

/-! ### takeInput -/

@[simp] theorem takeInput_life (s : State) :
    (takeInput s).2.life = s.life := by
  unfold takeInput; split <;> rfl
@[simp] theorem takeInput_engStep (s : State) :
    (takeInput s).2.engStep = s.engStep := by
  unfold takeInput; split <;> rfl
@[simp] theorem takeInput_evtPend (s : State) :
    (takeInput s).2.evtPend = s.evtPend := by
  unfold takeInput; split <;> rfl
@[simp] theorem takeInput_engFault (s : State) :
    (takeInput s).2.engFault = s.engFault := by
  unfold takeInput; split <;> rfl
@[simp] theorem takeInput_flags (s : State) :
    (takeInput s).2.flags = s.flags := by
  unfold takeInput; split <;> rfl
@[simp] theorem takeInput_woke (s : State) :
    (takeInput s).2.woke = s.woke := by
  unfold takeInput; split <;> rfl
@[simp] theorem takeInput_outq (s : State) :
    (takeInput s).2.outq = s.outq := by
  unfold takeInput; split <;> rfl
@[simp] theorem takeInput_inq (s : State) :
    (takeInput s).2.inq = s.inq := by
  unfold takeInput; split <;> rfl
@[simp] theorem takeInput_stats (s : State) :
    (takeInput s).2.stats = s.stats := by
  unfold takeInput; split <;> rfl
@[simp] theorem takeInput_cfg (s : State) :
    (takeInput s).2.cfg = s.cfg := by
  unfold takeInput; split <;> rfl
@[simp] theorem takeInput_ports (s : State) :
    (takeInput s).2.ports = s.ports := by
  unfold takeInput; split <;> rfl
@[simp] theorem takeInput_rtrace (s : State) :
    (takeInput s).2.rtrace = s.rtrace := by
  unfold takeInput; split <;> rfl
@[simp] theorem takeInput_etrace (s : State) :
    (takeInput s).2.etrace = s.etrace := by
  unfold takeInput; split <;> rfl
@[simp] theorem takeInput_params (s : State) :
    (takeInput s).2.params = s.params := by
  unfold takeInput; split <;> rfl
@[simp] theorem takeInput_bus (s : State) :
    (takeInput s).2.bus = s.bus := by
  unfold takeInput; split <;> rfl
@[simp] theorem takeInput_answers (s : State) :
    (takeInput s).2.answers = s.answers := by
  unfold takeInput; split <;> rfl

end Sys2Proof.Machine
end

