-- ==== Sys2Proof/Laws/Ops.lean ====
section
/-! SUPPORT. One lemma per shared operation that says what it can do; later proofs cite these
instead of unfolding the operation. -/

namespace Sys2Proof.Machine

open Sys2Proof Config

/-! ### Ports -/

theorem portOf_of_getElem? {s : State} {p : Nat} {x : Port} (h : s.ports[p]? = some x) :
    portOf s p = x := by
  simp [portOf, h]

theorem hasPort_of_getElem? {s : State} {p : Nat} {x : Port} (h : s.ports[p]? = some x) :
    hasPort s p = true := by
  simp [hasPort, (List.getElem?_eq_some_iff.mp h).1]

theorem hasPort_of_getElem?_none {s : State} {p : Nat} (h : s.ports[p]? = none) :
    hasPort s p = false := by
  simpa [hasPort] using h

theorem getElem?_portOf {s : State} {p : Nat} (h : p < s.ports.length) :
    s.ports[p]? = some (portOf s p) := by
  simp [portOf, h]

/-- A port with a command pending exists: past the last port nothing is pending. -/
theorem getElem?_of_pend {s : State} {p : Nat} {pc : Pending} (h : (portOf s p).pend = some pc) :
    s.ports[p]? = some (portOf s p) := by
  by_cases hp : p < s.ports.length
  · exact getElem?_portOf hp
  · rw [portOf, List.getD_eq_default _ _ (by omega)] at h
    exact absurd h (by simp [Port.reset])

theorem setPort_eq {s : State} {p : Nat} {x : Port} :
    setPort p x s = { s with ports := s.ports.set p x } := rfl

theorem portOf_setPort {s : State} {p : Nat} (x : Port) (h : p < s.ports.length) :
    portOf (setPort p x s) p = x := by
  simp [portOf, h]

theorem portOf_setPort_ne {s : State} {p q : Nat} (x : Port) (h : q ≠ p) :
    portOf (setPort p x s) q = portOf s q := by
  simp [portOf, List.getElem?_set_ne (Ne.symm h)]

theorem setResult_eq {s : State} {p : Nat} {x : Port} (c : ResultCode)
    (h : s.ports[p]? = some x) :
    setResult p c s = { s with ports := s.ports.set p { x with result := codeOf c } } := by
  rw [setResult, portOf_of_getElem? h, setPort_eq]

theorem deliver_error {s : State} {p : Nat} {x : Port} (c : ResultCode)
    (h : s.ports[p]? = some x) :
    deliver p (.error c) s = { s with ports := s.ports.set p { x with result := codeOf c } } :=
  setResult_eq c h

theorem deliver_ok {s : State} {p : Nat} {x : Port} (f : Frame) (h : s.ports[p]? = some x) :
    deliver p (.ok f) s =
      { s with ports := s.ports.set p { x with regs := setFrame x.regs f, result := 0x00 } } := by
  simp only [deliver, portOf_of_getElem? h]
  rfl

/-- A delivery sets one port, with nothing pending there changed and a code that is not PENDING. -/
theorem deliver_ports (p : Nat) (r : Except ResultCode Frame) (s : State) :
    ∃ x : Port, (deliver p r s).ports = s.ports.set p x ∧ x.pend = (portOf s p).pend := by
  cases r with
  | error c => exact ⟨{ portOf s p with result := codeOf c }, rfl, rfl⟩
  | ok f =>
    exact ⟨{ portOf s p with regs := setFrame (portOf s p).regs f, result := codeOf .ok }, rfl, rfl⟩

/-! ### Issue and completion of a command -/

theorem onPort_some {s : State} {p : Nat} {x : Port} (f : State → State)
    (h : s.ports[p]? = some x) : onPort p f s = .next (f s) := by
  simp [onPort, hasPort_of_getElem? h]

theorem onPort_none {s : State} {p : Nat} (f : State → State) (h : s.ports[p]? = none) :
    onPort p f s = .refused .noSuchPort := by
  simp [onPort, hasPort_of_getElem?_none h]

theorem onPort_next {s t : State} {p : Nat} {f : State → State} (h : onPort p f s = .next t) :
    p < s.ports.length ∧ t = f s := by
  unfold onPort at h
  split at h
  · rename_i hp
    exact ⟨by simpa [hasPort] using hp, by cases h; rfl⟩
  · cases h

theorem issueCommand_dropped {s : State} {p : Nat} {x : Port} {pc : Pending} (c : Command)
    (body : Operands → State → State) (h : s.ports[p]? = some x) (hp : x.pend = some pc) :
    issueCommand p c body s = s := by
  simp [issueCommand, portOf_of_getElem? h, hp]

theorem issueCommand_idle {s : State} {p : Nat} {x : Port} (c : Command)
    (body : Operands → State → State) (h : s.ports[p]? = some x) (hp : x.pend = none) :
    issueCommand p c body s =
      if legal c s.life && waits c s then latchCommand p c x.regs s else body x.regs s := by
  simp [issueCommand, portOf_of_getElem? h, hp]

/-- Issuing a command does nothing, latches it, or runs its body, with nothing pending before. -/
theorem issueCommand_cases (p : Nat) (c : Command) (body : Operands → State → State) (s : State) :
    issueCommand p c body s = s ∨
    ((portOf s p).pend = none ∧ legal c s.life = true ∧ waits c s = true ∧
      issueCommand p c body s = latchCommand p c (portOf s p).regs s) ∨
    ((portOf s p).pend = none ∧ (legal c s.life && waits c s) = false ∧
      issueCommand p c body s = body (portOf s p).regs s) := by
  unfold issueCommand
  split
  · exact .inl rfl
  · rename_i h
    by_cases hc : (legal c s.life && waits c s) = true
    · rw [if_pos hc]
      exact .inr (.inl ⟨h, by simpa using hc⟩)
    · rw [if_neg hc]
      exact .inr (.inr ⟨h, by simpa using hc, rfl⟩)

/-- A port's step does nothing, or clears the pending command and runs it. -/
theorem portTurn_cases (p : Nat) (s : State) :
    portTurn p s = s ∨
    ∃ pc : Pending, (portOf s p).pend = some pc ∧ waits pc.op s = false ∧
      portTurn p s = runCommand pc.op p pc.snap (clearPending p s) := by
  unfold portTurn
  split
  · exact .inl rfl
  · rename_i pc h
    by_cases hw : waits pc.op s = true
    · exact .inl (by rw [if_pos hw])
    · exact .inr ⟨pc, h, by simpa using hw, by rw [if_neg hw]⟩

/-! ### Radio answers -/

theorem takeAnswer_none {α : Type} {kind : Answer → Option α} :
    ∀ {l : List Answer}, (∀ x ∈ l, kind x = none) → takeAnswer kind l = none
  | [], _ => rfl
  | a :: l, h => by
    simp [takeAnswer, h a, takeAnswer_none (l := l) fun x hx => h x (by simp [hx])]

theorem takeAnswer_append {α : Type} {kind : Answer → Option α} {x : Answer} {v : α}
    (hx : kind x = some v) (post : List Answer) :
    ∀ {pre : List Answer}, (∀ y ∈ pre, kind y = none) →
      takeAnswer kind (pre ++ x :: post) = some (v, pre ++ post)
  | [], _ => by simp [takeAnswer, hx]
  | a :: pre, h => by
    have ih := takeAnswer_append hx post (pre := pre) fun y hy => h y (by simp [hy])
    simp [takeAnswer, h a, ih]

/-- Everything a draw can do: the answers and the count of draws may move, nothing else. -/
theorem draw_snd {α : Type} (kind : Answer → Option α) (free : Nat → α) (s : State) :
    ∃ (a : List Answer) (d : Nat), (draw kind free s).2 = { s with answers := a, draws := d } := by
  unfold draw
  split
  · rename_i rest _
    exact ⟨rest, s.draws, rfl⟩
  · exact ⟨s.answers, s.draws + 1, rfl⟩

/-- The same, of the pair. -/
theorem draw_eq {α : Type} (kind : Answer → Option α) (free : Nat → α) (s : State) :
    ∃ (v : α) (a : List Answer) (d : Nat),
      draw kind free s = (v, { s with answers := a, draws := d }) := by
  obtain ⟨a, d, h⟩ := draw_snd kind free s
  exact ⟨_, a, d, Prod.ext rfl h⟩

/-- A settled answer at the head of the list is the one drawn. -/
theorem draw_settled {α : Type} {kind : Answer → Option α} (free : Nat → α) {s : State}
    {x : Answer} {v : α} {rest : List Answer} (h : s.answers = x :: rest) (hx : kind x = some v) :
    draw kind free s = (v, { s with answers := rest }) := by
  simp [draw, h, takeAnswer, hx]

/-! ### FIFOs -/

theorem pushOut_some {pkt : Packet} {s t : State} (h : pushOut pkt s = some t) :
    s.outq.length < s.params.qcap ∧ t = { s with outq := s.outq ++ [pkt] } := by
  unfold pushOut at h
  split at h
  · rename_i hl
    exact ⟨hl, by cases h; rfl⟩
  · cases h

theorem pushIn_some {pkt : Packet} {s t : State} (h : pushIn pkt s = some t) :
    s.inq.length < s.params.qcap ∧ t = { s with inq := s.inq ++ [pkt] } := by
  unfold pushIn at h
  split at h
  · rename_i hl
    exact ⟨hl, by cases h; rfl⟩
  · cases h

theorem pushOut_eq_none {pkt : Packet} {s : State} :
    pushOut pkt s = none ↔ s.params.qcap ≤ s.outq.length := by
  simp [pushOut]

theorem pushIn_eq_none {pkt : Packet} {s : State} :
    pushIn pkt s = none ↔ s.params.qcap ≤ s.inq.length := by
  simp [pushIn]

theorem popOut_some {pkt : Packet} {s t : State} (h : popOut s = some (pkt, t)) :
    s.outq = pkt :: t.outq ∧ t = { s with outq := t.outq } := by
  unfold popOut at h
  split at h
  · cases h
  · rename_i hq
    cases h
    exact ⟨hq, rfl⟩

theorem popIn_some {pkt : Packet} {s t : State} (h : popIn s = some (pkt, t)) :
    s.inq = pkt :: t.inq ∧ t = { s with inq := t.inq } := by
  unfold popIn at h
  split at h
  · cases h
  · rename_i hq
    cases h
    exact ⟨hq, rfl⟩

theorem popIn_eq_none {s : State} : popIn s = none ↔ s.inq = [] := by
  unfold popIn
  split <;> simp_all

/-! ### The codec's refusals -/

theorem checkSize_ok {n : Nat} (h : checkSize n = .ok ()) : 3 ≤ n ∧ n ≤ 32 := by
  unfold checkSize at h
  by_cases h3 : n < 3
  · simp [h3] at h
  · by_cases h32 : n > 32
    · simp [h3, h32] at h
    · omega

/-! ### The engine and the environment -/

theorem atStep_at {k : BitVec 4} {body : State → Host.Outcome State Fault Refusal} {s : State}
    (h : s.engStep = k) : atStep k body s = body s := by
  simp [atStep, h]

theorem atStep_away {k : BitVec 4} {body : State → Host.Outcome State Fault Refusal} {s : State}
    (h : s.engStep ≠ k) : atStep k body s = .next s := by
  simp [atStep, h]

/-- A step is what its input does. -/
theorem step_eq (s : State) : step s = takeTurn (takeInput s).1 (takeInput s).2 := rfl

theorem takeInput_listed {s : State} {i : Input} {rest : List Input} (h : s.inputs = i :: rest) :
    takeInput s = (i, { s with inputs := rest }) := by
  simp [takeInput, h]

/-- Everything taking an input can do: the inputs and the count of draws may move, nothing else. -/
theorem takeInput_snd (s : State) :
    ∃ (l : List Input) (d : Nat), (takeInput s).2 = { s with inputs := l, draws := d } := by
  unfold takeInput
  split
  · rename_i rest _
    exact ⟨rest, s.draws, rfl⟩
  · exact ⟨s.inputs, s.draws + 1, rfl⟩

/-- The target of an offset of port `p`'s window. -/
theorem busTarget_port {s : State} {p off : Nat} (hp : p < s.ports.length) (ho : off < 0x100) :
    busTarget s (portAddress s p off) = some (.port p off) := by
  unfold busTarget portAddress
  have ha : s.params.base + 0x100 * (p + 1) + off - s.params.base = 0x100 * (p + 1) + off := by omega
  rw [if_neg (by omega), ha, if_neg (by omega), if_pos (by omega)]
  have h1 : (0x100 * (p + 1) + off) / 0x100 - 1 = p := by omega
  have h2 : (0x100 * (p + 1) + off) % 0x100 = off := by omega
  rw [h1, h2]

/-- The target of an offset of the global window. -/
theorem busTarget_global {s : State} {off : Nat} (ho : off < 0x100) :
    busTarget s (s.params.base + off) = some (.global off) := by
  unfold busTarget
  have ha : s.params.base + off - s.params.base = off := by omega
  rw [if_neg (by omega), ha, if_pos ho]

end Sys2Proof.Machine
end

