-- ==== Sys2Proof/Laws/PerInstr.lean ====
section
/-! SUPPORT. Statements for all instructions, one lemma per constructor. -/

open Sys2Proof

/-- Of the rows of spec/opcode_table.json that stand at the instruction's place, exactly its own
accepts its encoding. -/
def Sys2Proof.Laws.MatchesRow.Statement (i : Instr) : Prop :=
  (opcodeTable.map fun r => decide (r.space = (encode i).space) && r.accepts (encode i).tableBits)
    = (List.range 21).map fun k => decide (k = i.rowIndex)

namespace Sys2Proof.Laws

/-- The rows of the packets' place, on any byte 0: the format bit alone decides (R50). -/
theorem packet_rows (ext : Bool) (dlc : BitVec 7) :
    (opcodeTable.map fun r => decide (r.space = .packet) && r.accepts (packetByte0 ext dlc).toNat)
      = (List.range 21).map fun k => decide (k = if ext then 9 else 8) := by
  revert ext dlc
  decide

/-- The rows of the commands' place, on the eight command words (R54). -/
theorem command_rows : ∀ k : Fin 8,
    (opcodeTable.map fun r => decide (r.space = .command) && r.accepts (BitVec.ofNat 32 (k.val + 1)).toNat)
      = (List.range 21).map fun j => decide (j = k.val) := by
  decide

theorem MatchesRow.init (p : Nat) : MatchesRow.Statement (.init p) := command_rows 0
theorem MatchesRow.enable (p : Nat) : MatchesRow.Statement (.enable p) := command_rows 1
theorem MatchesRow.send (p : Nat) : MatchesRow.Statement (.send p) := command_rows 2
theorem MatchesRow.read (p : Nat) : MatchesRow.Statement (.read p) := command_rows 3
theorem MatchesRow.reset (p : Nat) : MatchesRow.Statement (.reset p) := command_rows 4
theorem MatchesRow.close (p : Nat) : MatchesRow.Statement (.close p) := command_rows 5
theorem MatchesRow.encode (p : Nat) : MatchesRow.Statement (.encode p) := command_rows 6
theorem MatchesRow.decode (p : Nat) : MatchesRow.Statement (.decode p) := command_rows 7
theorem MatchesRow.pktStd (p : Nat) (dlc : BitVec 7) (body : List Byte) :
    MatchesRow.Statement (.pktStd p dlc body) := packet_rows false dlc
theorem MatchesRow.pktExt (p : Nat) (dlc : BitVec 7) (body : List Byte) :
    MatchesRow.Statement (.pktExt p dlc body) := packet_rows true dlc
theorem MatchesRow.s0Idle : MatchesRow.Statement .s0Idle := rfl
theorem MatchesRow.s1Standby : MatchesRow.Statement .s1Standby := rfl
theorem MatchesRow.s2Clear : MatchesRow.Statement .s2Clear := rfl
theorem MatchesRow.s3Listen : MatchesRow.Statement .s3Listen := rfl
theorem MatchesRow.s4Poll : MatchesRow.Statement .s4Poll := rfl
theorem MatchesRow.s5Read : MatchesRow.Statement .s5Read := rfl
theorem MatchesRow.s6MaxRt : MatchesRow.Statement .s6MaxRt := rfl
theorem MatchesRow.s7TxDs : MatchesRow.Statement .s7TxDs := rfl
theorem MatchesRow.s8Chan : MatchesRow.Statement .s8Chan := rfl
theorem MatchesRow.s9Write : MatchesRow.Statement .s9Write := rfl
theorem MatchesRow.s10Yield : MatchesRow.Statement .s10Yield := rfl

end Sys2Proof.Laws
end

