-- ==== Sys2Proof/Laws/Step.lean ====
section
/-! SUPPORT. Everything a command and a step can do, said once: later proofs take these cases apart
instead of unfolding the step. -/

namespace Sys2Proof.Machine

open Sys2Proof Config

/-- A command word's meaning is the issue of its command (R106). -/
theorem exec_instr (c : Command) (p : Nat) (s : State) :
    exec (c.instr p) s = onPort p (issueCommand p c (runCommand c p)) s := by
  cases c <;> rfl

/-- A word that decodes is one command's on that port. -/
theorem decode_command_ok {p : Nat} {w : Word} {i : Instr} (h : decode (.command p w) = .ok i) :
    ∃ c : Command, decodeCommand w = some c ∧ i = c.instr p := by
  unfold decode at h
  cases hc : decodeCommand w with
  | none => simp [hc] at h
  | some c =>
    simp only [hc] at h
    cases h
    exact ⟨c, rfl, rfl⟩

theorem decode_command_error {p : Nat} {w : Word} {r : Reject}
    (h : decode (.command p w) = .error r) : decodeCommand w = none := by
  unfold decode at h
  cases hc : decodeCommand w with
  | none => rfl
  | some c => simp [hc] at h

/-- A decoded address in a port's window is that port's, at that offset. -/
theorem busTarget_eq_port {s : State} {addr p off : Nat} (h : busTarget s addr = some (.port p off)) :
    p < s.ports.length ∧ off < 0x100 ∧ addr = portAddress s p off := by
  unfold busTarget at h
  split at h
  · cases h
  split at h
  · cases h
  split at h
  · cases h
    unfold portAddress
    omega
  · cases h

theorem busTarget_eq_global {s : State} {addr off : Nat}
    (h : busTarget s addr = some (.global off)) : off < 0x100 ∧ addr = s.params.base + off := by
  unfold busTarget at h
  split at h
  · cases h
  split at h
  · cases h
    omega
  split at h <;> cases h

/-- Everything an admitted bus write can do (R33). -/
theorem busWrite_next {addr width : Nat} {v : Word} {s t : State}
    (h : busWrite addr width v s = .next t) :
    t = { s with bus := .error } ∨
    (∃ off, t = { s with bus := .done, cfg := writeConfig s.cfg off v }) ∨
    (∃ p off, p < s.ports.length ∧ off ≠ 0 ∧ t = writePort p off v { s with bus := .done }) ∨
    (∃ p, p < s.ports.length ∧ width = 4 ∧ addr = portAddress s p 0 ∧
      ((decodeCommand v = none ∧ t = illegalCommand p { s with bus := .done }) ∨
       (∃ c, decodeCommand v = some c ∧ exec (c.instr p) { s with bus := .done } = .next t))) := by
  unfold busWrite at h
  split at h
  · cases h
  · rename_i tgt htgt
    split at h
    · rename_i ha
      simp only [admitted, Bool.and_eq_true, decide_eq_true_eq] at ha
      cases tgt with
      | global off =>
        cases h
        exact .inr (.inl ⟨off, rfl⟩)
      | port p off =>
        obtain ⟨hp, -, haddr⟩ := busTarget_eq_port htgt
        unfold writeTarget at h
        by_cases ho : off = 0
        · subst ho
          simp only [if_true] at h
          refine .inr (.inr (.inr ⟨p, hp, ha.1, haddr, ?_⟩))
          unfold issueWord at h
          split at h
          · rename_i i hi
            obtain ⟨c, hc, rfl⟩ := decode_command_ok hi
            exact .inr ⟨c, hc, h⟩
          · rename_i r hr
            cases h
            exact .inl ⟨decode_command_error hr, rfl⟩
        · simp only [ho, if_false] at h
          cases h
          exact .inr (.inr (.inl ⟨p, off, hp, ho, rfl⟩))
    · cases h
      exact .inl rfl

/-- The engine's step runs the instruction whose position ENG_STEP holds (R16). -/
theorem engineTurn_eq {i : Instr} {s : State} (h : encode i = .position s.engStep) :
    engineTurn s = exec i s := by
  unfold engineTurn
  cases i <;> simp only [encode, reduceCtorEq, Encoded.position.injEq] at h <;> rw [← h] <;> rfl

/-- An engine step that stops at no unreachable position is some instruction's. -/
theorem engineTurn_next {s t : State} (h : engineTurn s = .next t) :
    ∃ i : Instr, encode i = .position s.engStep ∧ exec i s = .next t := by
  unfold engineTurn at h
  cases hd : decode (.position s.engStep) with
  | error e => rw [hd] at h; cases h
  | ok i =>
    rw [hd] at h
    refine ⟨i, ?_, h⟩
    simp only [decode, decodePosition] at hd
    repeat' split at hd
    all_goals first | (cases hd; simp only [encode, *]) | cases hd

/-- Everything a bus read can do (R32). -/
theorem busRead_next {addr width : Nat} {s t : State} (h : busRead addr width s = .next t) :
    ∃ r : BusResponse, t = { s with bus := r } := by
  unfold busRead at h
  split at h
  · cases h
  · split at h <;> cases h <;> exact ⟨_, rfl⟩

/-- Everything one step can do: `s'` is the state once the input is taken. -/
theorem step_next {s t : State} (h : step s = .next t) :
    ∃ (l : List Input) (d : Nat) (s' : State), (takeInput s).2 = s' ∧
      s' = { s with inputs := l, draws := d } ∧
      ((∃ r, ((∃ addr width, (takeInput s).1 = .busRead addr width) ∨
          ∃ addr width v, (takeInput s).1 = .busWrite addr width v) ∧ t = { s' with bus := r }) ∨
       (∃ addr width v off, (takeInput s).1 = .busWrite addr width v ∧
          t = { s' with bus := .done, cfg := writeConfig s.cfg off v }) ∨
       (∃ addr width v p off, (takeInput s).1 = .busWrite addr width v ∧ p < s.ports.length ∧
          t = writePort p off v { s' with bus := .done }) ∨
       (∃ v p, (takeInput s).1 = .busWrite (portAddress s p 0) 4 v ∧ p < s.ports.length ∧
          decodeCommand v = none ∧ t = illegalCommand p { s' with bus := .done }) ∨
       (∃ v p c, (takeInput s).1 = .busWrite (portAddress s p 0) 4 v ∧ p < s.ports.length ∧
          decodeCommand v = some c ∧ exec (c.instr p) { s' with bus := .done } = .next t) ∨
       ((takeInput s).1 = .irq ∧ t = raiseIrq s') ∨
       ((takeInput s).1 = .rst ∧ t = blockReset s') ∨
       ((takeInput s).1 = .engine ∧ engineTurn s' = .next t) ∨
       (∃ p, (takeInput s).1 = .port p ∧ t = portTurn p s') ∨
       (∃ a, (takeInput s).1 = .answer a ∧ t = { s' with answers := s.answers ++ [a] })) := by
  obtain ⟨l, d, hs⟩ := takeInput_snd s
  refine ⟨l, d, (takeInput s).2, rfl, hs, ?_⟩
  rw [step_eq] at h
  cases hi : (takeInput s).1 with
  | busRead addr width =>
    rw [hi] at h
    obtain ⟨r, rfl⟩ := busRead_next h
    exact .inl ⟨r, .inl ⟨addr, width, rfl⟩, rfl⟩
  | busWrite addr width v =>
    rw [hi] at h
    rcases busWrite_next h with rfl | ⟨off, rfl⟩ | ⟨p, off, hp, -, rfl⟩ | ⟨p, hp, rfl, ha, hc⟩
    · exact .inl ⟨_, .inr ⟨addr, width, v, rfl⟩, rfl⟩
    · exact .inr (.inl ⟨addr, width, v, off, rfl, by rw [hs]⟩)
    · exact .inr (.inr (.inl ⟨addr, width, v, p, off, rfl, by rw [hs] at hp; exact hp, rfl⟩))
    · have hp' : p < s.ports.length := by rw [hs] at hp; exact hp
      have ha' : addr = portAddress s p 0 := by rw [ha, hs]; rfl
      subst ha'
      rcases hc with ⟨hn, rfl⟩ | ⟨c, hc, he⟩
      · exact .inr (.inr (.inr (.inl ⟨v, p, rfl, hp', hn, rfl⟩)))
      · exact .inr (.inr (.inr (.inr (.inl ⟨v, p, c, rfl, hp', hc, he⟩))))
  | irq =>
    rw [hi] at h
    cases h
    exact .inr (.inr (.inr (.inr (.inr (.inl ⟨rfl, rfl⟩)))))
  | rst =>
    rw [hi] at h
    cases h
    exact .inr (.inr (.inr (.inr (.inr (.inr (.inl ⟨rfl, rfl⟩))))))
  | engine =>
    rw [hi] at h
    exact .inr (.inr (.inr (.inr (.inr (.inr (.inr (.inl ⟨rfl, h⟩)))))))
  | port p =>
    rw [hi] at h
    cases h
    exact .inr (.inr (.inr (.inr (.inr (.inr (.inr (.inr (.inl ⟨p, rfl, rfl⟩))))))))
  | answer a =>
    rw [hi] at h
    cases h
    exact .inr (.inr (.inr (.inr (.inr (.inr (.inr (.inr (.inr ⟨a, rfl, by rw [hs]⟩))))))))

theorem legal_not_init {c : Command} {l : Life} (hc : c ≠ .init) (he : c ≠ .encode)
    (hd : c ≠ .decode) : legal c l = true ↔ (l = .ready ∨ l = .enabled) := by
  cases c <;> cases l <;> simp [legal] at *

/-- What Encode refuses with is an ENC_* code, by R56's number. -/
theorem encodeFrame_code {f : Frame} {c : ResultCode} (h : encodeFrame f = .error c) :
    (c, codeOf c) ∈ encodeCodes := by
  unfold encodeFrame at h
  repeat' split at h
  all_goals first | (cases h; decide) | cases h

/-- What Decode refuses with is a DEC_* code, by R56's number. -/
theorem decodeFrame_code {n : Nat} {b : Vector Byte 32} {c : ResultCode}
    (h : decodeFrame n b = .error c) : (c, codeOf c) ∈ decodeCodes := by
  unfold decodeFrame checkSize decodeExtended decodeStandard at h
  repeat' split at h
  all_goals cases h
  all_goals first | decide | (rename_i hh; repeat' split at hh)
  all_goals first | (cases hh; decide) | cases hh

/-- No ENC_* code is PENDING. -/
theorem encodeFrame_error {f : Frame} {c : ResultCode} (h : encodeFrame f = .error c) :
    c ≠ .pending := by
  rintro rfl
  exact absurd (encodeFrame_code h) (by decide)

/-- No DEC_* code is PENDING. -/
theorem decodeFrame_error {n : Nat} {b : Vector Byte 32} {c : ResultCode}
    (h : decodeFrame n b = .error c) : c ≠ .pending := by
  rintro rfl
  exact absurd (decodeFrame_code h) (by decide)

/-- A command word written to a port's CMD is the taking of its command. -/
theorem takesCommand_write {s : State} {p : Nat} {w : Word} {c : Command} (hp : p < s.ports.length)
    (hi : (takeInput s).1 = .busWrite (portAddress s p 0) 4 w) (hc : decodeCommand w = some c) :
    takesCommand s c := .inl ⟨p, w, hp, hi, hc⟩

/-- A port scheduled with a command pending is the taking of that command. -/
theorem takesCommand_port {s : State} {p : Nat} {pc : Pending} (hi : (takeInput s).1 = .port p)
    (h : (portOf s p).pend = some pc) : takesCommand s pc.op :=
  .inr ⟨p, portOf s p, pc, hi, getElem?_of_pend h, h, rfl⟩

/-- A delivery writes one port's record and leaves its pending command alone. -/
theorem deliver_eq {p : Nat} {r : Except ResultCode Frame} {s : State}
    (h : ∀ c, r = .error c → c ≠ .pending) :
    ∃ x : Port, x.pend = (portOf s p).pend ∧
      (∃ rc : ResultCode, x.result = codeOf rc ∧ rc ≠ .pending) ∧ deliver p r s = setPort p x s := by
  cases r with
  | error c => exact ⟨{ portOf s p with result := codeOf c }, rfl, ⟨c, rfl, h c rfl⟩, rfl⟩
  | ok f =>
    exact ⟨{ portOf s p with regs := setFrame (portOf s p).regs f, result := codeOf .ok }, rfl,
      ⟨.ok, rfl, by decide⟩, rfl⟩

/-- What a command's body does to the port it runs on: the record `x` keeps what is pending and
takes a code other than PENDING. -/
def Answered (p : Nat) (s : State) (x : Port) : Prop :=
  x.pend = (portOf s p).pend ∧ ∃ rc : ResultCode, x.result = codeOf rc ∧ rc ≠ .pending

/-- Everything INIT's body can do (R109). -/
theorem initBody_cases (p : Nat) (snap : Operands) (s : State) :
    ∃ x : Port, Answered p s x ∧
      ((s.life ≠ .off ∧ initBody p snap s = setPort p x s) ∨
       (s.life = .off ∧ ∃ (a : List Answer) (d : Nat),
          initBody p snap s = setPort p x
            { s with answers := a, draws := d, rtrace := s.rtrace ++ [.config s.cfg, .probe],
                     outq := [], inq := [], life := .ready } ∨
          initBody p snap s = setPort p x
            { s with answers := a, draws := d, rtrace := s.rtrace ++ [.config s.cfg, .probe],
                     etrace := s.etrace ++ [.fatalResetReq], life := .fatal })) := by
  unfold initBody
  by_cases hl : s.life = .off
  · obtain ⟨v, a, d, he⟩ := draw_eq probeKind radioProbe (logRadio .probe (logRadio (.config s.cfg) s))
    cases v with
    | true =>
      refine ⟨{ portOf s p with result := codeOf .ok }, ⟨rfl, .ok, rfl, by decide⟩, .inr ⟨hl, a, d, .inl ?_⟩⟩
      have hp : askProbe (logRadio (.config s.cfg) s) = _ := he
      simp only [hl, legal, if_true, hp]
      simp [setResult, logRadio, portOf]
    | false =>
      refine ⟨{ portOf s p with result := codeOf .fatalProbe }, ⟨rfl, .fatalProbe, rfl, by decide⟩,
        .inr ⟨hl, a, d, .inr ?_⟩⟩
      have hp : askProbe (logRadio (.config s.cfg) s) = _ := he
      simp only [hl, legal, if_true, hp]
      simp [setResult, logRadio, portOf, escalate, emit]
  · refine ⟨{ portOf s p with result := codeOf .errState }, ⟨rfl, .errState, rfl, by decide⟩,
      .inl ⟨hl, ?_⟩⟩
    have : legal .init s.life = false := by cases h : s.life <;> simp_all [legal]
    simp [this, setResult]

/-- Everything the body of ENABLE, RESET or CLOSE can do (R110, R113, R115). -/
theorem lifecycleBody_cases (c : Command) (hc : c = .enable ∨ c = .reset ∨ c = .close) (p : Nat)
    (snap : Operands) (s : State) :
    ∃ x : Port, Answered p s x ∧
      (runCommand c p snap s = setPort p x s ∨
       ((s.life = .ready ∨ s.life = .enabled) ∧
          ∃ (l : Life) (e : Bool) (r : List RadioRequest), (l = .ready ∨ l = .enabled) ∧
            (e = true → s.evtPend = true ∧ l = .enabled) ∧
            runCommand c p snap s = setPort p x { s with life := l, evtPend := e, rtrace := r })) := by
  by_cases hl : legal c s.life = true
  · have hl' := (legal_not_init (by rcases hc with rfl | rfl | rfl <;> decide)
      (by rcases hc with rfl | rfl | rfl <;> decide)
      (by rcases hc with rfl | rfl | rfl <;> decide)).mp hl
    refine ⟨{ portOf s p with result := codeOf .ok }, ⟨rfl, .ok, rfl, by decide⟩, .inr ⟨hl', ?_⟩⟩
    rcases hc with rfl | rfl | rfl
    · exact ⟨.enabled, s.evtPend, (openRadio s).rtrace, .inr rfl, fun h => ⟨h, rfl⟩,
        by simp only [runCommand, enableBody, hl, if_true]; rfl⟩
    · exact ⟨.enabled, false, (openRadio (logRadio .close s)).rtrace, .inr rfl, fun h => (Bool.false_ne_true h).elim,
        by simp only [runCommand, resetBody, hl, if_true]; rfl⟩
    · exact ⟨.ready, false, (logRadio .close s).rtrace, .inl rfl, fun h => (Bool.false_ne_true h).elim,
        by simp only [runCommand, closeBody, hl, if_true]; rfl⟩
  · refine ⟨{ portOf s p with result := codeOf .errState }, ⟨rfl, .errState, rfl, by decide⟩, .inl ?_⟩
    rcases hc with rfl | rfl | rfl
    · simp only [runCommand, enableBody, hl]; rfl
    · simp only [runCommand, resetBody, hl]; rfl
    · simp only [runCommand, closeBody, hl]; rfl

/-- Everything SEND's body can do (R111). -/
theorem sendBody_cases (p : Nat) (snap : Operands) (s : State) :
    ∃ x : Port, Answered p s x ∧
      (sendBody p snap s = setPort p x s ∨
       ((s.life = .ready ∨ s.life = .enabled) ∧ ∃ pkt : Packet,
          encodeFrame (frameOf snap) = .ok pkt ∧ s.outq.length < s.params.qcap ∧
          sendBody p snap s = setPort p x
            { s with outq := s.outq ++ [pkt]
                     evtPend := if s.life = .enabled then true else s.evtPend })) := by
  by_cases hl : legal .send s.life = true
  · have hl' := (legal_not_init (by decide) (by decide) (by decide)).mp hl
    unfold sendBody
    rw [if_pos hl]
    split
    · rename_i c hc
      exact ⟨{ portOf s p with result := codeOf c }, ⟨rfl, c, rfl, encodeFrame_error hc⟩, .inl rfl⟩
    · rename_i pkt hpkt
      split
      · exact ⟨{ portOf s p with result := codeOf .errFull }, ⟨rfl, .errFull, rfl, by decide⟩, .inl rfl⟩
      · rename_i t ht
        obtain ⟨hlen, rfl⟩ := pushOut_some ht
        refine ⟨{ portOf s p with result := codeOf .ok }, ⟨rfl, .ok, rfl, by decide⟩,
          .inr ⟨hl', pkt, hpkt, hlen, ?_⟩⟩
        unfold triggerRun
        split <;> rfl
  · refine ⟨{ portOf s p with result := codeOf .errState }, ⟨rfl, .errState, rfl, by decide⟩, .inl ?_⟩
    simp only [sendBody, hl]
    rfl

/-- Everything READ's body can do with INQ not empty (R112). -/
theorem readBody_cases {s : State} (p : Nat) (snap : Operands) (hne : s.inq ≠ []) :
    ∃ x : Port, Answered p s x ∧
      (readBody p snap s = setPort p x s ∨
       ((s.life = .ready ∨ s.life = .enabled) ∧ ∃ (pkt : Packet) (rest : List Packet),
          s.inq = pkt :: rest ∧ readBody p snap s = setPort p x { s with inq := rest })) := by
  by_cases hl : legal .read s.life = true
  · have hl' := (legal_not_init (by decide) (by decide) (by decide)).mp hl
    unfold readBody
    rw [if_pos hl]
    cases hq : s.inq with
    | nil => exact absurd hq hne
    | cons pkt rest =>
      simp only [popIn, hq]
      obtain ⟨x, hx, hr, he⟩ := deliver_eq (p := p) (s := { s with inq := rest })
        (r := decodeFrame pkt.length (imageOf pkt)) fun c hc => decodeFrame_error hc
      exact ⟨x, ⟨hx, hr⟩, .inr ⟨hl', pkt, rest, rfl, he⟩⟩
  · refine ⟨{ portOf s p with result := codeOf .errState }, ⟨rfl, .errState, rfl, by decide⟩, .inl ?_⟩
    simp only [readBody, hl]
    rfl

/-- Everything ENCODE's body can do (R116). -/
theorem encodeBody_cases (p : Nat) (snap : Operands) (s : State) :
    ∃ x : Port, Answered p s x ∧ encodeBody p snap s = setPort p x s := by
  unfold encodeBody
  split
  · rename_i c hc
    exact ⟨{ portOf s p with result := codeOf c }, ⟨rfl, c, rfl, encodeFrame_error hc⟩, rfl⟩
  · rename_i pkt _
    exact ⟨{ portOf s p with regs := setPacket (portOf s p).regs pkt, result := codeOf .ok },
      ⟨rfl, .ok, rfl, by decide⟩, rfl⟩

/-- Everything DECODE's body can do (R117). -/
theorem decodeBody_cases (p : Nat) (snap : Operands) (s : State) :
    ∃ x : Port, Answered p s x ∧ decodeBody p snap s = setPort p x s := by
  obtain ⟨x, hx, hr, he⟩ := deliver_eq (p := p) (s := s)
    (r := decodeFrame snap.pktSize.toNat snap.pktBuf) fun c hc => decodeFrame_error hc
  exact ⟨x, ⟨hx, hr⟩, he⟩

end Sys2Proof.Machine
end

