-- ==== Sys2Proof/Machine/Assembly.lean ====
section
/-! DEFINITION. The host assembly syntax of R57 and R58: register names, their offsets, and what the
statements and pseudo-instructions expand to. It only writes inputs down; no step reads it. -/

namespace Sys2Proof.Machine

open Sys2Proof

/-- The global window's registers (R22). -/
inductive GlobalReg where
  | status | cfgAddrLo | cfgAddrHi | cfgChannel | cfgRetry | params
  | statTxComplete | statTxLost | statTxPostponed | statRxComplete | statRxLost
deriving DecidableEq, Repr

/-- A port window's registers (R14); `pktBuf k` is PKT_BUFk. -/
inductive PortReg where
  | cmd | result | frameId | frameDlc | frameDataLo | frameDataHi | baud | pktSize | pktBuf (k : Fin 8)
deriving DecidableEq, Repr

/-- A register name of R57: `G.<NAME>` or `P<p>.<NAME>`. -/
inductive RegName where
  | g (r : GlobalReg)
  | p (n : Nat) (r : PortReg)
deriving DecidableEq, Repr

/-- Offsets in the global window (R22). -/
def globalOffset : GlobalReg → Nat
  | .status => 0x000
  | .cfgAddrLo => 0x004
  | .cfgAddrHi => 0x008
  | .cfgChannel => 0x00C
  | .cfgRetry => 0x010
  | .params => 0x014
  | .statTxComplete => 0x020
  | .statTxLost => 0x024
  | .statTxPostponed => 0x028
  | .statRxComplete => 0x02C
  | .statRxLost => 0x030

/-- Offsets in a port's window (R14). -/
def portOffset : PortReg → Nat
  | .cmd => 0x00
  | .result => 0x04
  | .frameId => 0x08
  | .frameDlc => 0x0C
  | .frameDataLo => 0x10
  | .frameDataHi => 0x14
  | .baud => 0x18
  | .pktSize => 0x1C
  | .pktBuf k => 0x20 + 4 * k.val

/-- `off(reg)` from BASE (R57). -/
def regOffset : RegName → Nat
  | .g r => globalOffset r
  | .p n r => 0x100 * (n + 1) + portOffset r

/-- `wr <reg>, <value>` (R57). -/
def asmWr (base : Nat) (r : RegName) (v : Word) : Config.Input := .busWrite (base + regOffset r) 4 v

/-- `rd <reg>` (R57). -/
def asmRd (base : Nat) (r : RegName) : Config.Input := .busRead (base + regOffset r) 4

/-- `env irq` (R57). -/
def asmEnvIrq : Config.Input := .irq

/-- `env rst` (R57). -/
def asmEnvRst : Config.Input := .rst

/-- `env <REQ> -> <answer>` (R57); the answer's constructor names the request. -/
def asmEnv (a : Config.Answer) : Config.Input := .answer a

/-- The word of a mnemonic (R54). -/
def commandWord (c : Command) : Word :=
  match encode (c.instr 0) with
  | .command _ w => w
  | _ => 0

/-- `cmd P<p>, <MNEMONIC>` (R58). -/
def asmCmd (base p : Nat) (c : Command) : List Config.Input :=
  [asmWr base (.p p .cmd) (commandWord c)]

/-- `frame P<p>, <id>, <dlc>, [d0, ..., d7]` (R58); omitted data bytes are 0. -/
def asmFrame (base p : Nat) (id dlc : Word) (d : List Byte) : List Config.Input :=
  [asmWr base (.p p .frameId) id, asmWr base (.p p .frameDlc) dlc,
   asmWr base (.p p .frameDataLo) (laneWord (d.getD 0 0) (d.getD 1 0) (d.getD 2 0) (d.getD 3 0)),
   asmWr base (.p p .frameDataHi) (laneWord (d.getD 4 0) (d.getD 5 0) (d.getD 6 0) (d.getD 7 0))]

/-- `pkt P<p>, [b0, ..., bn-1]` (R58); bytes at n and above are 0. -/
def asmPkt (base p : Nat) (b : List Byte) : List Config.Input :=
  asmWr base (.p p .pktSize) (BitVec.ofNat 32 b.length) ::
    (List.finRange 8).map fun k =>
      asmWr base (.p p (.pktBuf k))
        (laneWord (b.getD (4 * k.val) 0) (b.getD (4 * k.val + 1) 0) (b.getD (4 * k.val + 2) 0)
          (b.getD (4 * k.val + 3) 0))

/-- One turn of `poll P<p>` (R58): a read of RESULT. -/
def asmPoll (base p : Nat) : Config.Input := asmRd base (.p p .result)

/-- `poll` repeats until the value read is not 0x000000FF (R58). -/
def pollDone (v : Word) : Bool := v != 0x000000FF#32

end Sys2Proof.Machine
end

