-- ==== Sys2Proof/Tests/Slice0.lean ====
section
/-! SUPPORT. Tests: the smoke test of WellFormed, one word per constructor written out from the
encoding tables, vectors of spec/95_test_vectors.md (the comment before a test names its vector), and
for every statement with hypotheses a concrete state and operands that meet them. -/

namespace Sys2Proof.Tests

open Sys2Proof Sys2Proof.Machine

/-! ### Helpers -/

/-- One field of a next state. -/
def seen {α : Type} (get : State → α) : Host.Outcome State Fault Refusal → Option α
  | .next t => some (get t)
  | _ => none

/-- An idle port with a frame in its registers. -/
def framePort (id : BitVec 32) (dlc : BitVec 4) (data : List Byte) : Port :=
  { Port.reset with
    regs := { Operands.reset with
      frameId := id, frameDlc := dlc, frameData := Vector.ofFn fun k => data.getD k.val 0 } }

/-- An idle port with a packet in its registers. -/
def packetPort (size : BitVec 6) (bytes : List Byte) : Port :=
  { Port.reset with regs := { Operands.reset with pktSize := size, pktBuf := imageOf bytes } }

/-- An idle port with a command pending. -/
def pendingPort (c : Command) : Port :=
  { Port.reset with pend := some ⟨c, Operands.reset⟩, result := 0xFF }

/-- The reset state in another LIFE, with port 0 given. -/
def live (l : Life) (x : Port) : State :=
  { State.reset with life := l, ports := [x, Port.reset] }

/-- The block enabled, the engine at a position, the radio's answers settled. -/
def running (k : BitVec 4) (answers : List Config.Answer) : State :=
  { State.reset with life := .enabled, engStep := k, answers := answers }

/-- The bytes of L1.1's first packet. -/
def packet123 : Packet := [0x02, 0x01, 0x23, 0xDE, 0xAD]

/-! ### WellFormed refuses an ill-formed term of each kind -/

theorem test_portOutOfRange_refused : (Instr.send 15).wellFormed = false := by decide
theorem test_shortPacket_refused : (Instr.pktStd 0 0 [0x12]).wellFormed = false := by decide
theorem test_longPacket_refused : (Instr.pktExt 0 0 (List.replicate 32 0)).wellFormed = false := by
  decide
theorem test_boundary_wellFormed :
    (Instr.send 14).wellFormed = true ∧ (Instr.pktStd 14 0 [0, 0]).wellFormed = true ∧
      (Instr.pktExt 14 0 (List.replicate 31 0)).wellFormed = true := by
  decide

/-! ### Decoding words written out from R54, R50 and R16 -/

theorem test_decode_init : decode (.command 0 0x00000001#32) = .ok (.init 0) := rfl
theorem test_decode_enable : decode (.command 0 0x00000002#32) = .ok (.enable 0) := rfl
theorem test_decode_send : decode (.command 1 0x00000003#32) = .ok (.send 1) := rfl
theorem test_decode_read : decode (.command 1 0x00000004#32) = .ok (.read 1) := rfl
theorem test_decode_reset : decode (.command 0 0x00000005#32) = .ok (.reset 0) := rfl
theorem test_decode_close : decode (.command 0 0x00000006#32) = .ok (.close 0) := rfl
theorem test_decode_encode : decode (.command 0 0x00000007#32) = .ok (.encode 0) := rfl
theorem test_decode_decode : decode (.command 0 0x00000008#32) = .ok (.decode 0) := rfl
/-- Byte 0 = 0b0_0000010. -/
theorem test_decode_pktStd :
    decode (.packet 0 packet123) = .ok (.pktStd 0 2 [0x01, 0x23, 0xDE, 0xAD]) := rfl
/-- Byte 0 = 0b1_0001000. -/
theorem test_decode_pktExt :
    decode (.packet 1 [0x88, 1, 0xAB, 0xCD, 0xEF, 1, 2, 3, 4, 5, 6, 7, 8]) =
      .ok (.pktExt 1 8 [1, 0xAB, 0xCD, 0xEF, 1, 2, 3, 4, 5, 6, 7, 8]) := rfl
theorem test_decode_s0Idle : decode (.position 0b0000#4) = .ok .s0Idle := rfl
theorem test_decode_s1Standby : decode (.position 0b0001#4) = .ok .s1Standby := rfl
theorem test_decode_s2Clear : decode (.position 0b0010#4) = .ok .s2Clear := rfl
theorem test_decode_s3Listen : decode (.position 0b0011#4) = .ok .s3Listen := rfl
theorem test_decode_s4Poll : decode (.position 0b0100#4) = .ok .s4Poll := rfl
theorem test_decode_s5Read : decode (.position 0b0101#4) = .ok .s5Read := rfl
theorem test_decode_s6MaxRt : decode (.position 0b0110#4) = .ok .s6MaxRt := rfl
theorem test_decode_s7TxDs : decode (.position 0b0111#4) = .ok .s7TxDs := rfl
theorem test_decode_s8Chan : decode (.position 0b1000#4) = .ok .s8Chan := rfl
theorem test_decode_s9Write : decode (.position 0b1001#4) = .ok .s9Write := rfl
theorem test_decode_s10Yield : decode (.position 0b1010#4) = .ok .s10Yield := rfl

/-- R55: what is not a command, and R16: what is not a position. -/
theorem test_decode_rejects :
    decode (.command 0 0x00000000#32) = .error .illegalCommand ∧
      decode (.command 0 0x00000009#32) = .error .illegalCommand ∧
      decode (.command 0 0x80000001#32) = .error .illegalCommand ∧
      decode (.position 0b1111#4) = .error .unreachablePosition := ⟨rfl, rfl, rfl, rfl⟩

/-- The host's numbering of the table's words. -/
theorem test_decodeTableWord :
    decodeTableWord 32 0x00000004 = some (.read 0) ∧ decodeTableWord 8 0x0A = some .s10Yield ∧
      decodeTableWord 8 0x80 = some (.pktExt 0 0 (List.replicate 31 0)) ∧
      decodeTableWord 8 0x0B = some (.pktStd 0 11 (List.replicate 31 0)) := by
  decide

/-- A placed word is what the next step runs. -/
theorem test_withFetchWord :
    seen (fun t => (portOf t 0).result) (step (State.reset.withFetchWord 32 3)) = some 0x02 ∧
      seen (fun t => (portOf t 0).result) (step (State.reset.withFetchWord 8 0x0B)) = some 0x22 ∧
      seen (·.engStep) (step (State.reset.withFetchWord 8 7)) = some 8#4 := by
  decide

/-! ### The codec: L1.1, L1.2, L2.1, L2.2 -/

/-- L1.1, first frame, by ENCODE. -/
theorem test_encode_standard :
    seen (fun t => ((portOf t 0).regs.pktSize, readPort t 0 0x20, readPort t 0 0x24))
      (exec (.encode 0) (live .off (framePort 0x123 2 [0xDE, 0xAD]))) =
      some (5#6, 0xDE230102#32, 0x000000AD#32) := by
  decide

/-- E6: data past dlc is not read. -/
theorem test_encode_extended :
    seen (fun t => (readPort t 0 0x1C, readPort t 0 0x20, readPort t 0 0x24))
      (exec (.encode 0) (live .fatal (framePort 0x01ABCDEF 3 [0xAA, 0xBB, 0xCC, 0x11]))) =
      some (8#32, 0xCDAB0183#32, 0xCCBBAAEF#32) := by
  decide

/-- E7, E9: an id too large; the dlc check comes first. -/
theorem test_encodeFrame_refusals :
    encodeFrame ⟨0x20000000, 0, Vector.replicate 8 0⟩ = .error .encBadId ∧
      encodeFrame ⟨0xFFFFFFFF, 15, Vector.replicate 8 0⟩ = .error .encBadDlc := by
  decide

/-- D18: the byte past the payload is ignored. -/
theorem test_decode_trailing :
    seen (fun t => (readPort t 0 0x08, readPort t 0 0x0C, readPort t 0 0x10, readPort t 0 0x14))
      (exec (.decode 0) (live .off (packetPort 6 [2, 1, 0x23, 0xDE, 0xAD, 0x77]))) =
      some (0x123#32, 2#32, 0x0000ADDE#32, 0#32) := by
  decide

/-- D15: PKT_SIZE = 33. -/
theorem test_decode_oversize :
    seen (fun t => (portOf t 0).result) (exec (.decode 0) (live .off (packetPort 33 []))) =
      some 0x21 := by
  decide

/-- D7, D9: the standard id. -/
theorem test_pktStd_id :
    seen (fun t => (portOf t 0).result) (exec (.pktStd 0 0 [0xF8, 0x00]) State.reset) = some 0x24 ∧
      seen (fun t => (portOf t 0).regs.frameId) (exec (.pktStd 0 0 [0x07, 0xFF]) State.reset) =
        some 0x7FF := by
  decide

/-- The check order's last two vectors of L2.2, and D14. -/
theorem test_pktStd_order :
    seen (fun t => (portOf t 0).result) (exec (.pktStd 0 9 [0xF8, 0x00]) State.reset) = some 0x22 ∧
      seen (fun t => (portOf t 0).result) (exec (.pktStd 0 0x70 [0, 0]) State.reset) = some 0x22 := by
  decide

/-- D11, D10, D22. -/
theorem test_pktExt_refusals :
    seen (fun t => (portOf t 0).result) (exec (.pktExt 0 0 [0, 0, 7, 0xFF]) State.reset) =
        some 0x25 ∧
      seen (fun t => (portOf t 0).result) (exec (.pktExt 0 0 [0x20, 0, 0, 0]) State.reset) =
        some 0x24 ∧
      seen (fun t => (portOf t 0).result) (exec (.pktExt 0 0 [0xFF, 0xFF]) State.reset) =
        some 0x23 := by
  decide

/-- D20. -/
theorem test_pktExt_frame :
    seen (fun t => (readPort t 0 0x08, readPort t 0 0x10, readPort t 0 0x14))
      (exec (.pktExt 0 8 [1, 0xAB, 0xCD, 0xEF, 1, 2, 3, 4, 5, 6, 7, 8]) State.reset) =
      some (0x1ABCDEF#32, 0x04030201#32, 0x08070605#32) := by
  decide

/-! ### Commands: L2.5 -/

/-- K1. -/
theorem test_init_ready :
    seen (fun t => (t.life, (portOf t 0).result, t.rtrace))
      (exec (.init 0) { State.reset with answers := [.probe true] }) =
      some (.ready, 0x00, [.config ⟨0, 0, 0, 0⟩, .probe]) := by
  decide

/-- K2. -/
theorem test_init_fatal :
    seen (fun t => (t.life, (portOf t 0).result, t.etrace))
      (exec (.init 0) { State.reset with answers := [.probe false] }) =
      some (.fatal, 0x04, [.fatalResetReq]) := by
  decide

/-- K7. -/
theorem test_enable :
    seen (fun t => (t.life, (portOf t 0).result, t.rtrace))
      (exec (.enable 0) (live .ready Port.reset)) =
      some (.enabled, 0x00, [.notify, .opened, .listen]) := by
  decide

/-- K8, K9: SEND latches an event only when ENABLED. -/
theorem test_send_trigger :
    seen (fun t => (t.outq, t.evtPend))
        (exec (.send 0) (live .ready (framePort 0x123 2 [0xDE, 0xAD]))) = some ([packet123], false) ∧
      seen (fun t => (t.outq, t.evtPend))
        (exec (.send 0) (live .enabled (framePort 0x123 2 [0xDE, 0xAD]))) =
        some ([packet123], true) := by
  decide

/-- K10, K11: encode precedes enqueue. -/
theorem test_send_full :
    seen (fun t => (portOf t 0).result)
        (exec (.send 0) { live .enabled (framePort 0x123 2 []) with
          outq := List.replicate 16 [0, 0, 0] }) = some 0x03 ∧
      seen (fun t => (portOf t 0).result)
        (exec (.send 0) { live .enabled (framePort 0x123 9 []) with
          outq := List.replicate 16 [0, 0, 0] }) = some 0x10 := by
  decide

/-- K12. -/
theorem test_read_pending :
    seen (fun t => ((portOf t 0).result, (portOf t 0).pend.map (·.op)))
      (exec (.read 0) (live .enabled Port.reset)) = some (0xFF, some .read) := by
  decide

/-- P3's second READ: a malformed packet is consumed. -/
theorem test_read_malformed :
    seen (fun t => ((portOf t 0).result, t.inq))
      (exec (.read 0) { live .enabled Port.reset with inq := [[0x12, 0x34]] }) =
      some (0x20, []) := by
  decide

/-- K15. -/
theorem test_reset :
    seen (fun t => (t.rtrace, t.life, t.stats.txc))
      (exec (.reset 0) { live .enabled Port.reset with stats := ⟨7, 0, 0, 0, 0⟩ }) =
      some ([.close, .notify, .opened, .listen], .enabled, 7) := by
  decide

/-- K14, K17. -/
theorem test_close :
    seen (fun t => (t.life, t.evtPend, t.rtrace))
        (exec (.close 0) { live .enabled Port.reset with evtPend := true }) =
        some (.ready, false, [.close]) ∧
      seen (fun t => ((portOf t 0).result, t.life))
        (exec (.close 0) { live .enabled Port.reset with engStep := 5#4 }) =
        some (0xFF, .enabled) := by
  decide

/-- K16, and K13's dropped write. -/
theorem test_issueWord :
    seen (fun t => (portOf t 0).result) (issueWord 0 0x80000001#32 State.reset) = some 0x01 ∧
      seen (fun t => (t.outq, (portOf t 0).result))
        (issueWord 0 3#32 (live .enabled (pendingPort .read))) = some ([], 0xFF) := by
  decide

/-! ### The engine: L2.4 -/

/-- The condition of S0, and the READY vector of R90: no run. -/
theorem test_s0Idle :
    seen (fun t => (t.engStep, t.evtPend))
        (exec .s0Idle { running 0 [] with evtPend := true }) = some (1, false) ∧
      seen (·.engStep) (exec .s0Idle { State.reset with life := .ready, evtPend := true }) = some 0 := by
  decide

theorem test_s1Standby :
    seen (fun t => (t.engStep, t.rtrace)) (exec .s1Standby (running 1 [])) = some (2, [.standby]) := by
  decide

/-- G7's flags. -/
theorem test_s2Clear :
    seen (fun t => (t.engStep, t.flags, t.answers))
      (exec .s2Clear (running 2 [.flags 0b110])) = some (3, 0b110, []) := by
  decide

/-- G11: with RX_DR = 0 the drain is passed over. -/
theorem test_s3Listen :
    seen (·.engStep) (exec .s3Listen { running 3 [] with flags := 0b110 }) = some 6 ∧
      seen (·.engStep) (exec .s3Listen { running 3 [] with flags := 0b001 }) = some 4 := by
  decide

theorem test_s4Poll :
    seen (·.engStep) (exec .s4Poll (running 4 [.count 255])) = some 5 ∧
      seen (·.engStep) (exec .s4Poll (running 4 [.count 0])) = some 6 := by
  decide

/-- G4 and G6. -/
theorem test_s5Read :
    seen (fun t => (t.inq, t.stats.rxc, t.engStep))
        (exec .s5Read (running 5 [.packet 3 (imageOf [0, 4, 0x56])])) = some ([[0, 4, 0x56]], 1, 4) ∧
      seen (fun t => (t.engFault, t.stats, t.engStep))
        (exec .s5Read (running 5 [.packet 40 (imageOf [])])) = some (true, Stats.reset, 0) := by
  decide

/-- G5 and G9. -/
theorem test_s5Read_full_woke :
    seen (fun t => (t.inq.length, t.stats.rxl))
        (exec .s5Read { running 5 [.packet 5 (imageOf [])] with inq := List.replicate 16 [] }) =
        some (16, 1) ∧
      seen (·.woke)
        (exec .s5Read { running 5 [.packet 3 (imageOf [0, 0, 5])] with
          ports := [Port.reset, pendingPort .read] }) = some true := by
  decide

/-- G7. -/
theorem test_s6MaxRt :
    seen (fun t => (t.stats.txl, t.rtrace))
      (exec .s6MaxRt { running 6 [] with flags := 0b110 }) = some (1, [.flushTx]) := by
  decide

/-- G7, G8. -/
theorem test_s7TxDs :
    seen (·.stats.txc) (exec .s7TxDs { running 7 [] with flags := 0b100 }) = some 1 := by
  decide

/-- G3 and G12. -/
theorem test_s8Chan :
    seen (fun t => (t.outq, t.stats.txp, t.engStep))
        (exec .s8Chan { running 8 [.available false] with outq := [packet123] }) =
        some ([packet123], 1, 10) ∧
      seen (·.stats.txp)
        (exec .s8Chan { running 8 [.available false] with
          outq := [packet123], stats := ⟨0, 0, 0xFFFFFFFF, 0, 0⟩ }) = some 0xFFFFFFFF := by
  decide

/-- G8: one WRITE only. -/
theorem test_s9Write :
    seen (fun t => (t.outq, t.rtrace, t.engStep))
      (exec .s9Write { running 9 [] with outq := [packet123, [0, 0, 0]] }) =
      some ([[0, 0, 0]], [.write packet123], 10) := by
  decide

/-- G9, G10. -/
theorem test_s10Yield :
    seen (fun t => (t.etrace, t.woke, t.engStep)) (exec .s10Yield { running 10 [] with woke := true }) =
        some ([.yieldReq], false, 0) ∧
      seen (·.etrace) (exec .s10Yield (running 10 [])) = some [] := by
  decide

/-! ### The bus: L2.6 -/

/-- B1, B2, B3, B5, B7, B9, B10. -/
theorem test_busRead :
    seen (·.bus) (busRead 0x002 4 State.reset) = some .error ∧
      seen (·.bus) (busRead 0x000 2 State.reset) = some .error ∧
      seen (·.bus) (busRead 0x018 4 State.reset) = some (.data 0) ∧
      seen (·.bus) (busRead 0x100 4 State.reset) = some (.data 0) ∧
      seen (·.bus) (busRead 0x014 4 State.reset) = some (.data 0x00000210) ∧
      seen (·.bus) (busRead 0x104 4 State.reset) = some (.data 0x000000FE) ∧
      busRead 0x300 4 State.reset = .fault .addressNotDecoded := by
  refine ⟨?_, ?_, ?_, ?_, ?_, ?_, rfl⟩ <;> decide

/-- B4, B6, B8. -/
theorem test_busWrite :
    seen (·.stats) (busWrite 0x020 4 5 State.reset) = some Stats.reset ∧
      seen (fun t => readPort t 0 0x0C) (busWrite 0x10C 4 0xFFFFFFFF State.reset) = some 0xF ∧
      seen (fun t => readGlobal t 0x08) (busWrite 0x008 4 0x1234 State.reset) = some 0x34 := by
  decide

/-- P1's CFG_RETRY: count 3, delay 15. -/
theorem test_busWrite_retry :
    seen (fun t => (t.cfg.retryCount, t.cfg.retryDelay)) (busWrite 0x010 4 0x0F03 State.reset) =
      some (3, 15) := by
  decide

/-- P1's last STATUS, and P3's. -/
theorem test_status :
    statusWord { running 0 [] with flags := 0b100 } = 0x00000082 ∧
      statusWord { running 0 [] with flags := 0b001, inq := [[], []] } = 0x02000022 ∧
      statusWord { running 0 [] with evtPend := true, outq := [[]] } = 0x0001000A := by
  decide

/-- P5's `pkt` and `frame` lines, and `cmd` (R58). -/
theorem test_assembly :
    asmCmd 0 1 .read = [.busWrite 0x200 4 4] ∧
      (asmPkt 0 0 [0x80, 0, 0, 7, 0xFF]).take 3 =
        [.busWrite 0x11C 4 5, .busWrite 0x120 4 0x07000080, .busWrite 0x124 4 0x000000FF] ∧
      asmFrame 0 0 0x800 8 [1, 2, 3, 4, 5, 6, 7, 8] =
        [.busWrite 0x108 4 0x800, .busWrite 0x10C 4 8, .busWrite 0x110 4 0x04030201,
          .busWrite 0x114 4 0x08070605] := by
  decide

/-! ### Witnesses: concrete states and operands that meet the statements' hypotheses -/

/-- A state whose next input is given. -/
def given (i : Config.Input) (s : State) : State := { s with inputs := [i] }

theorem witness_DecodeOfEncodeIsIdentity :
    (Instr.close 14).wellFormed = true ∧ (Instr.pktStd 14 127 [0xFF, 0xFF]).wellFormed = true ∧
      (Instr.pktExt 0 0 (List.replicate 31 0)).wellFormed = true ∧
      Instr.s10Yield.wellFormed = true := by
  decide

theorem witness_EncodeOfDecodeIsIdentity :
    decode (.packet 3 (0xFF :: List.replicate 31 0)) = .ok (.pktExt 3 0x7F (List.replicate 31 0)) ∧
      decode (.packet 3 [0x7F, 0, 0]) = .ok (.pktStd 3 0x7F [0, 0]) := ⟨rfl, rfl⟩

theorem witness_StepRunsTheDecodedInstruction_bus :
    (takeInput (given (.busWrite 0x200 4 8) State.reset)).1 =
        .busWrite (portAddress (given (.busWrite 0x200 4 8) State.reset) 1 0) 4 8 ∧
      1 < (given (.busWrite 0x200 4 8) State.reset).ports.length ∧
      (given (.busWrite 0x200 4 8) State.reset).params.base % 0x1000 = 0 ∧
      decode (.command 1 8) = .ok (.decode 1) := by
  refine ⟨?_, ?_, ?_, rfl⟩ <;> decide

theorem witness_StepRunsTheDecodedInstruction_engine :
    (takeInput (given .engine (running 10 []))).1 = .engine ∧
      decode (.position (given .engine (running 10 [])).engStep) = .ok .s10Yield := ⟨rfl, rfl⟩

/-- The clauses on a word that is no command, the other bus accesses, a port's step, a settled answer,
and a state with no input listed. -/
theorem witness_StepRunsTheDecodedInstruction_inputs :
    (takeInput (given (.busWrite 0x200 4 9) State.reset)).1 =
        .busWrite (portAddress (given (.busWrite 0x200 4 9) State.reset) 1 0) 4 9 ∧
      (takeInput (given (.busWrite 0x004 4 9) State.reset)).1 = .busWrite 0x004 4 9 ∧
      (takeInput (given (.busRead 0x2FC 4) State.reset)).1 = .busRead 0x2FC 4 ∧
      (takeInput (given (.port 1) State.reset)).1 = .port 1 ∧
      (takeInput (given (.answer (.count 255)) State.reset)).1 = .answer (.count 255) ∧
      (given .irq State.reset).inputs = .irq :: [] ∧ State.reset.inputs = [] := by
  decide

theorem witness_ReadAndDecodeRunThePacket_read :
    (live .ready Port.reset).ports[1]? = some Port.reset ∧ Port.reset.pend = none ∧
      (live .ready Port.reset).life = .ready ∧ (live .enabled Port.reset).life = .enabled ∧
      { live .ready Port.reset with inq := [[0, 4, 0x56]] }.inq = [0, 4, 0x56] :: [] ∧
      decode (.packet 1 [0, 4, 0x56]) = .ok (.pktStd 1 0 [4, 0x56]) ∧
      decode (.packet 1 (0x80 :: List.replicate 31 0)) =
        .ok (.pktExt 1 0 (List.replicate 31 0)) := ⟨rfl, rfl, rfl, rfl, rfl, rfl, rfl⟩

theorem witness_ReadAndDecodeRunThePacket_decode :
    (live .off (packetPort 32 packet123)).ports[0]? = some (packetPort 32 packet123) ∧
      (packetPort 32 packet123).pend = none ∧ (packetPort 32 packet123).regs.pktSize.toNat ≤ 32 ∧
      decodeTableWord 8 0x22 = some (.pktStd 0 0x22 (List.replicate 31 0)) ∧
      decode (.packet 0 ((packetPort 32 [0x22]).regs.pktBuf.toList.take 32)) =
        .ok (.pktStd 0 0x22 (List.replicate 31 0)) := by
  refine ⟨rfl, rfl, ?_, ?_, rfl⟩ <;> decide

theorem witness_FrameCodecRoundTrip :
    validFrame ⟨0x1FFFFFFF, 8, Vector.replicate 8 0xFF⟩ = true ∧
      validFrame ⟨0x7FF, 0, Vector.replicate 8 0xFF⟩ = true ∧
      (∀ k : Fin 8, (2 : Nat) ≤ k.val → (framePort 0x800 2 [1, 2]).regs.frameData[k] = 0) ∧
      decodeFrame 5 (imageOf [0x80, 0, 0, 8, 0]) = .ok ⟨0x800, 0, Vector.replicate 8 0⟩ ∧
      decodeFrame 3 (imageOf [0, 7, 0xFF]) = .ok ⟨0x7FF, 0, Vector.replicate 8 0⟩ := by
  decide

theorem witness_EncodeRefusesOrGivesThePacket :
    8 < (9#4).toNat ∧ (8#4).toNat ≤ 8 ∧ 0x1FFFFFFF < (0x20000000#32).toNat ∧
      (0x1FFFFFFF#32).toNat ≤ 0x1FFFFFFF ∧ 0x7FF < (0x800#32).toNat ∧ ¬ 0x7FF < (0x7FF#32).toNat := by
  decide

/-- One image for each clause of the chain, at the boundary: D2, D15, D12, D22, D8, D10, D11, and the
two that decode, D6 and D9. -/
theorem witness_DecodeChecksInOrder :
    decodeFrame 2 (imageOf [0x89, 0xFF]) = .error .decTooShort ∧
      decodeFrame 33 (imageOf []) = .error .decOversize ∧
      decodeFrame 3 (imageOf [0x09, 0xF8, 0]) = .error .decBadDlc ∧
      decodeFrame 3 (imageOf [0x80, 0xFF, 0xFF]) = .error .decTruncated ∧
      decodeFrame 3 (imageOf [0, 8, 0]) = .error .decBadId ∧
      decodeFrame 5 (imageOf [0x80, 0x20, 0, 0, 0]) = .error .decBadId ∧
      decodeFrame 5 (imageOf [0x80, 0, 0, 7, 0xFF]) = .error .decNonCanonical ∧
      decodeFrame 5 (imageOf [0x80, 0, 0, 8, 0]) = .ok ⟨0x800, 0, Vector.replicate 8 0⟩ ∧
      decodeFrame 3 (imageOf [0, 7, 0xFF]) = .ok ⟨0x7FF, 0, Vector.replicate 8 0⟩ := by
  decide

theorem witness_DecodeReadsOnlyThePacket :
    ∀ k : Fin 32, k.val < 3 → (imageOf [0, 4, 0x56, 0xFF])[k] = (imageOf [0, 4, 0x56])[k] := by
  decide

theorem witness_DecodedFrameIsValid :
    decodeFrame 6 (imageOf [0x80, 0, 0, 8, 0, 0x77]) = .ok ⟨0x800, 0, Vector.replicate 8 0⟩ ∧
      decodeFrame 32 (imageOf [0, 7, 0xFF]) = .ok ⟨0x7FF, 0, Vector.replicate 8 0⟩ := by
  decide

theorem witness_StandardPacketIsRead :
    State.reset.ports[1]? = some Port.reset ∧ (List.replicate 29 (0 : Byte)).length ≤ 29 := by
  decide

theorem witness_ExtendedPacketIsRead :
    State.reset.ports[1]? = some Port.reset ∧ 2 ≤ ([0xFF, 0xFF] : List Byte).length ∧
      ([0xFF, 0xFF, 0] : List Byte).length < 4 ∧ (List.replicate 27 (0 : Byte)).length ≤ 27 ∧
      0x800 = 0x1000000 * (0 : Byte).toNat + 0x10000 * (0 : Byte).toNat + 0x100 * (8 : Byte).toNat
        + (0 : Byte).toNat := by
  decide

theorem witness_CommandWriteIsDroppedWhilePending :
    (live .enabled (pendingPort .read)).ports[0]? = some (pendingPort .read) ∧
      (pendingPort .read).pend = some ⟨.read, Operands.reset⟩ := ⟨rfl, rfl⟩

theorem witness_IllegalWordWritesOnlyResult :
    State.reset.ports[1]? = some Port.reset ∧ Port.reset.pend = none ∧
      ¬(1 ≤ (0#32).toNat ∧ (0#32).toNat ≤ 8) ∧ ¬(1 ≤ (9#32).toNat ∧ (9#32).toNat ≤ 8) := by
  decide

theorem witness_IllegalInThisLifeIsErrState :
    State.reset.ports[0]? = some Port.reset ∧ Port.reset.pend = none ∧
      (∀ c : Command, c ≠ .init → c ≠ .encode → c ≠ .decode → legal c State.reset.life = false) ∧
      legal .init (live .ready Port.reset).life = false := by
  refine ⟨rfl, rfl, fun c => ?_, rfl⟩
  cases c <;> simp <;> rfl

theorem witness_WaitingCommandIsLatched :
    (live .ready Port.reset).ports[0]? = some Port.reset ∧ Port.reset.pend = none ∧
      (live .ready Port.reset).life = .ready ∧ (live .ready Port.reset).inq = [] ∧
      (running 5 []).ports[1]? = some Port.reset ∧ (running 5 []).life = .enabled ∧
      (running 5 []).engStep ≠ 0#4 ∧
      { State.reset with engStep := 1#4 }.life = .off ∧
      { State.reset with engStep := 1#4 }.engStep ≠ 0#4 := by
  decide

theorem witness_PendingCommandRunsWhenItNoLongerWaits :
    (live .enabled (pendingPort .read)).ports[0]? = some (pendingPort .read) ∧
      (pendingPort .read).pend = some ⟨.read, Operands.reset⟩ ∧
      { live .enabled (pendingPort .read) with inq := [[]] }.inq ≠ [] ∧
      (live .enabled (pendingPort .read)).inq = [] ∧
      (live .enabled (pendingPort .close)).ports[0]? = some (pendingPort .close) ∧
      (pendingPort .close).pend = some ⟨.close, Operands.reset⟩ ∧
      (live .enabled (pendingPort .close)).engStep = 0#4 ∧ (running 10 []).engStep ≠ 0#4 := by
  decide

theorem witness_InitConfiguresAndProbes :
    State.reset.ports[1]? = some Port.reset ∧ Port.reset.pend = none ∧ State.reset.life = .off ∧
      State.reset.engStep = 0#4 := by
  decide

/-- Both answers of the probe arise. -/
theorem witness_InitConfiguresAndProbes_answers :
    (draw probeKind Config.radioProbe { State.reset with answers := [.probe true] }).1 = true ∧
      (draw probeKind Config.radioProbe { State.reset with answers := [.probe false] }).1 = false := by
  decide

/-- For the ERR_STATE clauses of the six lifecycle commands' statements. -/
theorem witness_errState :
    (live .fatal Port.reset).ports[0]? = some Port.reset ∧ Port.reset.pend = none ∧
      (live .fatal Port.reset).life = .fatal ∧ State.reset.life = .off ∧
      (live .ready Port.reset).life ≠ .off := by
  decide

/-- For EnableOpensTheRadio, ResetClosesAndEnables and CloseReleasesTheRadio, in both LIFE values that
admit them. -/
theorem witness_lifecycleCommands :
    (live .ready Port.reset).ports[0]? = some Port.reset ∧ Port.reset.pend = none ∧
      (live .ready Port.reset).life = .ready ∧ (live .enabled Port.reset).life = .enabled ∧
      (live .ready Port.reset).engStep = 0#4 ∧ (live .enabled Port.reset).engStep = 0#4 := by
  decide

theorem witness_SendQueuesTheEncodedFrame :
    (live .enabled (framePort 0x1FFFFFFF 8 [])).ports[0]? = some (framePort 0x1FFFFFFF 8 []) ∧
      (framePort 0x1FFFFFFF 8 []).pend = none ∧
      (live .enabled (framePort 0x1FFFFFFF 8 [])).life = .enabled ∧
      8 < (framePort 0 9 []).regs.frameDlc.toNat ∧
      0x1FFFFFFF < (framePort 0x20000000 8 []).regs.frameId.toNat ∧
      (framePort 0x1FFFFFFF 8 []).regs.frameDlc.toNat ≤ 8 ∧
      (framePort 0x1FFFFFFF 8 []).regs.frameId.toNat ≤ 0x1FFFFFFF ∧
      State.reset.params.qcap ≤ (List.replicate 16 packet123).length ∧
      (List.replicate 15 packet123).length < State.reset.params.qcap := by
  decide

theorem witness_ReadTakesTheHeadOfInq :
    (live .enabled Port.reset).ports[1]? = some Port.reset ∧ Port.reset.pend = none ∧
      (live .enabled Port.reset).life = .enabled ∧
      { live .enabled Port.reset with inq := [[0, 4, 0x56]] }.inq = [0, 4, 0x56] :: [] ∧
      decodeFrame [0, 4, 0x56].length (imageOf [0, 4, 0x56]) = .ok ⟨0x456, 0, Vector.replicate 8 0⟩ ∧
      decodeFrame [0x12, 0x34].length (imageOf [0x12, 0x34]) = .error .decTooShort := by
  decide

theorem witness_EncodeWritesThePacketRegisters :
    State.reset.ports[0]? = some Port.reset ∧ Port.reset.pend = none ∧
      encodeFrame ⟨Port.reset.regs.frameId, Port.reset.regs.frameDlc, Port.reset.regs.frameData⟩ =
        .ok [0, 0, 0] ∧
      (live .off (framePort 0 9 [])).ports[0]? = some (framePort 0 9 []) ∧
      encodeFrame ⟨(framePort 0 9 []).regs.frameId, (framePort 0 9 []).regs.frameDlc,
        (framePort 0 9 []).regs.frameData⟩ = .error .encBadDlc := by
  decide

theorem witness_DecodeWritesTheFrameRegisters :
    (live .off (packetPort 3 [])).ports[0]? = some (packetPort 3 []) ∧
      (packetPort 3 []).pend = none ∧
      decodeFrame (packetPort 3 []).regs.pktSize.toNat (packetPort 3 []).regs.pktBuf =
        .ok ⟨0, 0, Vector.replicate 8 0⟩ ∧
      State.reset.ports[0]? = some Port.reset ∧ Port.reset.pend = none ∧
      decodeFrame Port.reset.regs.pktSize.toNat Port.reset.regs.pktBuf = .error .decTooShort := by
  decide

theorem witness_OtherPortsAreUntouched :
    (1 : Nat) ≠ 0 ∧ (∃ t, exec (Command.instr 0 .close) (live .enabled Port.reset) = .next t) ∧
      portTurn 0 (live .enabled (pendingPort .close)) ≠ live .enabled (pendingPort .close) := by
  refine ⟨by decide, ⟨_, rfl⟩, by decide⟩

theorem witness_RunStartsUnderItsCondition :
    { running 0 [] with evtPend := true, ports := [pendingPort .read] }.engStep = 0#4 ∧
      (∀ x ∈ [pendingPort .read], ∀ pc : Pending, x.pend = some pc →
        pc.op ≠ .init ∧ pc.op ≠ .enable ∧ pc.op ≠ .reset ∧ pc.op ≠ .close) ∧
      (running 0 []).engStep = 0#4 ∧ (running 0 []).evtPend = false ∧
      (pendingPort .close).pend = some ⟨.close, Operands.reset⟩ := by
  refine ⟨rfl, ?_, rfl, rfl, rfl⟩
  intro x hx pc hpc
  obtain rfl := List.mem_singleton.mp hx
  cases hpc
  decide

/-- For RunOpensWithStandbyClearListen, DrainLoopTestsTheCount, RunRetiresTransmissions,
CarrierSenseSendsOrPostpones, SendStepWritesTheHead and RunEndsWithOneYield: each position, and both
values of what the clauses ask of FLAGS and OUTQ. -/
theorem witness_engineSteps :
    (running 1 []).engStep = 1#4 ∧ (running 2 []).engStep = 2#4 ∧ (running 3 []).engStep = 3#4 ∧
      (running 4 []).engStep = 4#4 ∧ (running 10 []).engStep = 10#4 ∧
      { running 6 [] with flags := 0b010 }.flags.getLsbD 1 = true ∧
      (running 6 []).flags.getLsbD 1 = false ∧
      { running 7 [] with flags := 0b100 }.flags.getLsbD 2 = true ∧
      (running 7 []).flags.getLsbD 2 = false ∧ (running 8 []).outq = [] ∧
      { running 8 [] with outq := [[]] }.outq ≠ [] ∧
      { running 9 [] with outq := [[]] }.outq = [] :: [] := by
  decide

theorem witness_DrainLoopQueuesOrDropsThePacket :
    (running 5 []).engStep = 5#4 ∧ 32 < (33#6).toNat ∧ (32#6).toNat ≤ 32 ∧
      (List.replicate 15 packet123).length < State.reset.params.qcap ∧
      State.reset.params.qcap ≤ (List.replicate 16 packet123).length := by
  decide

theorem witness_EngineHoldsAwayFromItsPosition :
    encode .s9Write = .position 9#4 ∧ State.reset.engStep ≠ 9#4 := by
  decide

theorem witness_EngineTouchesNoPort :
    ∃ t, engineTurn { running 9 [] with outq := [packet123] } = .next t ∧ t.outq = [] :=
  ⟨_, rfl, rfl⟩

theorem witness_RadioAnswerMovesNothingElse :
    (∀ x ∈ (running 4 [.probe true]).answers, countKind x = none) ∧
      (running 4 [.probe true, .count 2, .count 1]).answers = [.probe true] ++ .count 2 :: [.count 1] ∧
      (∀ y ∈ ([.probe true] : List Config.Answer), countKind y = none) ∧
      countKind (.count 2) = some 2 := by
  decide

/-- A drain of two packets, one of the largest size, and one packet to send. -/
def drainState : State :=
  { running 1 (.flags 0b111 :: drainAnswers [(32, imageOf []), (0, imageOf [])] ++ [.available true])
    with outq := [packet123] }

theorem witness_WholeRunIssuesItsRequestsInOrder :
    drainState.engStep = 1#4 ∧
      (∀ p ∈ [((32 : BitVec 6), imageOf []), (0, imageOf [])], p.1.toNat ≤ 32) ∧
      drainState.answers =
        Config.Answer.flags 0b111 ::
          (if (0b111#3).getLsbD 0 then drainAnswers [(32, imageOf []), (0, imageOf [])] else []) ++
          (if drainState.outq = [] then [] else [Config.Answer.available true]) ++ [] ∧
      2 * 2 + 10 ≤ 14 := by
  decide

/-- Two busy rounds, the second with a drain. -/
theorem witness_PostponementKeepsThePacket :
    (running 0 []).engStep = 0#4 ∧ (running 0 []).life = .enabled ∧ (running 0 []).engFault = false ∧
      (∀ x ∈ (running 0 []).ports, lifecyclePending x = false) ∧
      { running 0 [] with outq := [packet123] }.outq = packet123 :: [] ∧
      (∀ r ∈ ([(0, []), (1, [(3, imageOf [])])] : List (BitVec 3 × List (BitVec 6 × Vector Byte 32))),
        (∀ p ∈ r.2, p.1.toNat ≤ 32) ∧ 2 * r.2.length + 11 ≤ 13) ∧
      (running 0 (busyRoundAnswers 0 [] ++ busyRoundAnswers 1 [(3, imageOf [])])).answers =
        (([(0, []), (1, [(3, imageOf [])])] :
          List (BitVec 3 × List (BitVec 6 × Vector Byte 32))).map
            fun r => busyRoundAnswers r.1 r.2).flatten ++ [] := by
  decide

theorem witness_FifoKeepsOrderWithoutLoss :
    (List.replicate 16 packet123).length ≤ State.reset.params.qcap ∧
      (List.replicate 16 packet123).length = State.reset.params.qcap ∧ State.reset.outq = [] ∧
      State.reset.inq = [] := by
  decide

/-- A sound state whose step queues a packet and latches an event: SEND in ENABLED. -/
def sendState : State :=
  given (.busWrite 0x100 4 3) (live .enabled (framePort 0x123 2 [0xDE, 0xAD]))

/-- For the statements about every step: EveryStepKeepsFifoDiscipline, OnlyIrqAndSendLatchAnEvent,
CountersOnlyRise, EveryStepKeepsSoundness, OnlyUndecodedAccessStops. -/
theorem witness_sendStep :
    ∃ t, step sendState = .next t ∧ t.outq = [packet123] ∧ sendState.evtPend = false ∧
      t.evtPend = true ∧ (takeInput sendState).1 ≠ .rst ∧ sound sendState = true := by
  refine ⟨_, rfl, ?_, rfl, ?_, ?_, ?_⟩ <;> decide

/-- For EveryStepKeepsFifoDiscipline: a packet queued by S5, packets popped by S9 and by a pending READ,
and FIFOs emptied by INIT. -/
theorem witness_EveryStepKeepsFifoDiscipline :
    seen (·.inq) (step (given .engine (running 5 [.packet 3 (imageOf [0, 0, 5])]))) =
        some [[0, 0, 5]] ∧
      seen (·.outq) (step (given .engine { running 9 [] with outq := [packet123] })) = some [] ∧
      seen (·.inq) (step (given (.port 0)
        { live .enabled (pendingPort .read) with inq := [packet123] })) = some [] ∧
      seen (fun t => (t.outq, t.life)) (step (given (.busWrite 0x100 4 1)
        { State.reset with outq := [packet123], answers := [.probe true] })) = some ([], .ready) := by
  decide

theorem witness_OnlyIrqAndSendLatchAnEvent_irq :
    (takeInput (given .irq (running 0 []))).1 = .irq ∧ (running 0 []).life = .enabled ∧
      (takeInput (given .irq State.reset)).1 = .irq ∧ State.reset.life ≠ .enabled := by
  decide

theorem witness_CountersOnlyRise :
    ∃ t, step (given .engine { running 7 [] with flags := 0b100 }) = .next t ∧
      t.stats.txc = 1 := ⟨_, rfl, rfl⟩

theorem witness_OnlyLifecycleCommandsChangeLife :
    ∃ t, step (given (.port 0) (live .enabled (pendingPort .close))) = .next t ∧
      t.life ≠ .enabled ∧ (takeInput (given (.port 0) (live .enabled (pendingPort .close)))).1 ≠ .rst := by
  refine ⟨_, rfl, ?_, ?_⟩ <;> decide

theorem witness_FatalLastsUntilRst :
    sound (given .irq (live .fatal Port.reset)) = true ∧
      (given .irq (live .fatal Port.reset)).life = .fatal ∧
      (takeInput (given .irq (live .fatal Port.reset))).1 ≠ .rst ∧
      ∃ t, step (given .irq (live .fatal Port.reset)) = .next t := by
  refine ⟨?_, rfl, ?_, ⟨_, rfl⟩⟩ <;> decide

theorem witness_EngineFaultLastsUntilRst :
    (given .engine { running 0 [] with engFault := true, evtPend := true }).engFault = true ∧
      (given .engine { running 0 [] with engFault := true, evtPend := true }).engStep = 0#4 ∧
      ∃ t, step (given .engine { running 0 [] with engFault := true, evtPend := true }) = .next t :=
  ⟨rfl, rfl, _, rfl⟩

theorem witness_RstResetsEveryElement :
    (takeInput (given .rst (running 5 []))).1 = .rst := rfl

theorem witness_UnalignedAccessIsBusError :
    State.reset.params.base ≤ 0x2FF ∧
      0x2FF < State.reset.params.base + 0x100 * (State.reset.ports.length + 1) ∧
      ¬((4 : Nat) = 4 ∧ 0x2FF % 4 = 0) ∧ ¬((2 : Nat) = 4 ∧ 0 % 4 = 0) := by
  decide

/-- For ReadsAnswerAndChangeNothing, OperandRegistersReadBack, ConfigurationRegistersReadBack and
ReadOnlyAndUnlistedOffsetsIgnoreWrites, at the first and last offsets of their clauses. -/
theorem witness_registerAccess :
    State.reset.params.base % 0x1000 = 0 ∧ 0xFC % 4 = 0 ∧ 0xFC < 0x100 ∧
      1 < State.reset.ports.length ∧ (0x08 ≤ 0x08 ∧ 0x08 < 0x40) ∧ (0x08 ≤ 0x3C ∧ 0x3C < 0x40) ∧
      (0x3C, 1) ≠ (0x08, 1) ∧ 0x30 < 0x34 ∧ State.reset.params.qcap ≤ 255 ∧
      State.reset.ports.length ≤ 15 ∧ State.reset.ports[1]? = some Port.reset := by
  decide

theorem witness_StatusShowsEveryField :
    { State.reset with outq := List.replicate 255 [] }.outq.length ≤ 255 ∧
      State.reset.inq.length ≤ 255 :=
  ⟨(List.length_replicate : (List.replicate 255 ([] : Packet)).length = 255).le, Nat.zero_le _⟩

theorem witness_StopsStandOutsideTheRules :
    0x300 ≥ State.reset.params.base + 0x100 * (State.reset.ports.length + 1) ∧
      State.reset.ports[2]? = none ∧ (running 9 []).engStep = 9#4 ∧ (running 9 []).outq = [] ∧
      10 < (running 11 []).engStep.toNat := by
  decide

/-- A sound state whose next access the block does not decode. -/
theorem witness_OnlyUndecodedAccessStops :
    sound (given (.busRead 0x300 4) State.reset) = true ∧
      step (given (.busRead 0x300 4) State.reset) = .fault .addressNotDecoded := ⟨by decide, rfl⟩

theorem witness_QuiescentMeansNothingEnabled :
    quiescent State.reset = true ∧ quiescent (live .enabled (pendingPort .read)) = true ∧
      quiescent (live .enabled (pendingPort .close)) = false := by
  decide

end Sys2Proof.Tests
end

section
/-! The scope family's proofs: every step keeps the state sound, a step is what its input does, a
radio answer moves nothing of the block, an engine step away from its position holds. -/

namespace Sys2Proof.Machine

open Sys2Proof Config

/-! ### A sound state taken apart -/

/-- What a sound state says of the block itself, its ports' records left out: `sound_iff` puts the
two together. -/
structure BlockSound (s : State) : Prop where
  /-- The parameters are legal (R6). -/
  params : 1 ≤ s.params.qcap ∧ s.params.qcap ≤ 255 ∧ 1 ≤ s.ports.length ∧ s.ports.length ≤ 15 ∧
    s.params.base % 0x1000 = 0
  /-- OUTQ is within its capacity (R85). -/
  outq_le : s.outq.length ≤ s.params.qcap
  /-- INQ is within its capacity (R85). -/
  inq_le : s.inq.length ≤ s.params.qcap
  /-- What SEND queued is 3 to 13 bytes (R64). -/
  outq_sizes : ∀ p ∈ s.outq, 3 ≤ p.length ∧ p.length ≤ 13
  /-- What the radio gave is at most 32 bytes (R76). -/
  inq_sizes : ∀ p ∈ s.inq, p.length ≤ 32
  /-- Outside READY and ENABLED both FIFOs stand empty (R18, R78). -/
  fifos_unused : ¬(s.life = .ready ∨ s.life = .enabled) → s.outq = [] ∧ s.inq = []
  /-- ENG_STEP is one of S0 to S10 (R16). -/
  step_le : s.engStep.toNat ≤ 10
  /-- A run exists only in ENABLED with no ENG_FAULT (R92, R97, R106). -/
  run : s.engStep ≠ 0#4 → s.life = .enabled ∧ s.engFault = false
  /-- S9 has a packet to send (R83). -/
  send : s.engStep = 9#4 → s.outq ≠ []
  /-- WOKE is 0 when the engine is idle (R114). -/
  woke : s.woke = true → s.engStep ≠ 0#4
  /-- EVT_PEND stands only in ENABLED (R19). -/
  latch : s.evtPend = true → s.life = .enabled

theorem portSound_reset (l : Life) : portSound l Port.reset = true := by
  cases l <;> decide

theorem forall_ports_iff (s : State) :
    (∀ x ∈ s.ports, portSound s.life x = true) ↔ ∀ q, portSound s.life (portOf s q) = true := by
  constructor
  · intro h q
    by_cases hq : q < s.ports.length
    · exact h _ (List.mem_of_getElem? (getElem?_portOf hq))
    · rw [portOf, List.getD_eq_default _ _ (by omega)]
      exact portSound_reset _
  · intro h x hx
    obtain ⟨q, hq⟩ := List.getElem?_of_mem hx
    rw [← portOf_of_getElem? hq]
    exact h q

theorem busy_iff (s : State) : busy s = true ↔ s.engStep ≠ 0#4 := by
  simp [busy]

theorem noFifosUninitialised_iff (s : State) :
    noFifosUninitialised s = true ↔
      (¬(s.life = .ready ∨ s.life = .enabled) → s.outq = [] ∧ s.inq = []) := by
  unfold noFifosUninitialised
  cases s.life <;> simp

theorem engineSound_iff (s : State) :
    engineSound s = true ↔
      s.engStep.toNat ≤ 10 ∧ (s.engStep ≠ 0#4 → s.life = .enabled ∧ s.engFault = false) ∧
        (s.engStep = 9#4 → s.outq ≠ []) ∧ (s.woke = true → s.engStep ≠ 0#4) := by
  simp [engineSound, busy, imp_iff_not_or, and_assoc]

/-- A sound state is a sound block whose ports are all sound. -/
theorem sound_iff (s : State) :
    sound s = true ↔ BlockSound s ∧ ∀ q, portSound s.life (portOf s q) = true := by
  simp only [← forall_ports_iff, sound, Bool.and_eq_true, noFifosUninitialised_iff,
    engineSound_iff, paramsLegal, fifosSound, latchSound, decide_eq_true_eq, List.all_eq_true,
    Bool.or_eq_true, Bool.not_eq_true']
  constructor
  · rintro ⟨⟨⟨⟨⟨hpar, ⟨⟨hol, hil⟩, hos⟩, his⟩, hun⟩, hle, hrun, hsend, hwoke⟩, hlatch⟩, hports⟩
    exact ⟨⟨hpar, hol, hil, hos, his, hun, hle, hrun, hsend, hwoke,
      fun he => hlatch.resolve_left (by simp [he])⟩, hports⟩
  · rintro ⟨h, hports⟩
    refine ⟨⟨⟨⟨⟨h.params, ⟨⟨h.outq_le, h.inq_le⟩, h.outq_sizes⟩, h.inq_sizes⟩, h.fifos_unused⟩,
      h.step_le, h.run, h.send, h.woke⟩, ?_⟩, hports⟩
    cases he : s.evtPend with
    | false => exact .inl rfl
    | true => exact .inr (h.latch he)

/-! ### Sound ports -/

theorem codeOf_mem_knownCodes (c : ResultCode) : codeOf c ∈ knownCodes := by
  cases c <;> decide

theorem codeOf_ne_pending {c : ResultCode} (h : c ≠ .pending) : codeOf c ≠ 0xFF#8 := by
  revert h
  cases c <;> decide

/-- A port with nothing pending is sound in every LIFE once its RESULT is a code but PENDING. -/
theorem portSound_idle {l : Life} {x : Port} {c : ResultCode} (hn : x.pend = none)
    (hr : x.result = codeOf c) (hc : c ≠ .pending) : portSound l x = true := by
  simp [portSound, hn, hr, codeOf_mem_knownCodes, codeOf_ne_pending hc]

/-- A port that latches a command that can wait is sound in READY and ENABLED. -/
theorem portSound_latched {l : Life} {x : Port} {c : Command} {o : Operands}
    (hl : l = .ready ∨ l = .enabled) (hc : c = .read ∨ c = .enable ∨ c = .reset ∨ c = .close) :
    portSound l { x with pend := some ⟨c, o⟩, result := codeOf .pending } = true := by
  have hff : codeOf .pending = 0xFF#8 := rfl
  have hknown : 0xFF#8 ∈ knownCodes := codeOf_mem_knownCodes .pending
  simp only [portSound, hff, hknown, ← Bool.decide_or, or_assoc, hl, hc, decide_true,
    Bool.and_self]

/-- LIFE matters to a port only through READY and ENABLED, where commands may be pending. -/
theorem portSound_of_life {l l' : Life} {x : Port} (h : portSound l x = true)
    (hl : l = .ready ∨ l = .enabled → l' = .ready ∨ l' = .enabled) : portSound l' x = true := by
  unfold portSound at h ⊢
  split at h
  · exact h
  · simp only [Bool.and_eq_true, ← Bool.decide_or, decide_eq_true_eq] at h ⊢
    obtain ⟨hk, ⟨hr, hlive⟩, hop⟩ := h
    exact ⟨hk, ⟨hr, hl hlive⟩, hop⟩

/-! ### Moves of the block that keep it sound -/

/-- `t` is a sound block with the ports of `s`, in a LIFE in which they are as sound as before. -/
structure SoundMove (s t : State) : Prop where
  block : BlockSound t
  ports : t.ports = s.ports
  life : s.life = .ready ∨ s.life = .enabled → t.life = .ready ∨ t.life = .enabled

theorem SoundMove.refl {s : State} (h : BlockSound s) : SoundMove s s := ⟨h, rfl, id⟩

/-- A move keeps every port that was sound sound. -/
theorem SoundMove.portSound {s t : State} (h : SoundMove s t) {q : Nat}
    (hq : portSound s.life (portOf s q) = true) : portSound t.life (portOf t q) = true := by
  rw [portOf, h.ports]
  exact portSound_of_life hq h.life

theorem SoundMove.sound {s t : State} (h : SoundMove s t) (hs : sound s = true) :
    sound t = true :=
  (sound_iff t).mpr ⟨h.block, fun q => h.portSound (((sound_iff s).mp hs).2 q)⟩

theorem BlockSound.setPort {s : State} (h : BlockSound s) (p : Nat) (x : Port) :
    BlockSound (setPort p x s) :=
  { h with params := by simpa using h.params }

/-- Writing one port's record: it and the other ports must be sound, not what stood there before. -/
theorem sound_setPort {s : State} {p : Nat} {x : Port} (hb : BlockSound s)
    (hp : p < s.ports.length) (hx : portSound s.life x = true)
    (ho : ∀ q, q ≠ p → portSound s.life (portOf s q) = true) : sound (setPort p x s) = true := by
  refine (sound_iff _).mpr ⟨hb.setPort p x, fun q => ?_⟩
  by_cases hq : q = p
  · subst hq
    rw [portOf_setPort x hp]
    exact hx
  · rw [portOf_setPort_ne x hq]
    exact ho q hq

theorem SoundMove.logRadio {s t : State} (h : SoundMove s t) (r : RadioRequest) :
    SoundMove s (logRadio r t) := ⟨{ h.block with }, h.ports, h.life⟩

/-- No part of soundness reads FLAGS or a counter. -/
theorem SoundMove.record {s t : State} (h : SoundMove s t) (f : BitVec 3) (c : Stats) :
    SoundMove s { t with flags := f, stats := c } := ⟨{ h.block with }, h.ports, h.life⟩

theorem SoundMove.draw {α : Type} {s t : State} (h : SoundMove s t) (kind : Answer → Option α)
    (free : Nat → α) : SoundMove s (draw kind free t).2 := by
  obtain ⟨a, d, he⟩ := draw_snd kind free t
  rw [he]
  exact ⟨{ h.block with }, h.ports, h.life⟩

/-- Within a run the sequencer may move to any step but S0, to S9 only with a packet to send. -/
theorem SoundMove.goto {s t : State} {k : BitVec 4} (h : SoundMove s t) (hrun : t.engStep ≠ 0#4)
    (hk : k.toNat ≤ 10 ∧ k ≠ 0#4) (h9 : k ≠ 9#4 ∨ t.outq ≠ []) : SoundMove s (goto k t) := by
  refine ⟨?_, h.ports, h.life⟩
  exact { h.block with
    step_le := hk.1
    run := fun _ => h.block.run hrun
    send := fun he => h9.resolve_left (absurd he)
    woke := fun _ => hk.2 }

/-- The end of a run (R102, R127) needs nothing of the run: the engine is idle and WOKE is 0. -/
theorem SoundMove.endRun {s t : State} (h : SoundMove s t) : SoundMove s (endRun t) := by
  refine ⟨?_, h.ports, h.life⟩
  exact { h.block with
    step_le := by simp
    run := fun hne => absurd rfl hne
    send := fun h9 => by simp at h9
    woke := fun hw => by simp at hw }

/-! ### Commands -/

/-- A command that is legal and waits is one that a sound port may hold pending: INIT never waits,
because the engine is idle in OFF. -/
theorem BlockSound.waiting {s : State} (h : BlockSound s) {c : Command}
    (hl : legal c s.life = true) (hw : waits c s = true) :
    (s.life = .ready ∨ s.life = .enabled) ∧
      (c = .read ∨ c = .enable ∨ c = .reset ∨ c = .close) := by
  cases c with
  | init =>
    have hen := (h.run ((busy_iff s).mp hw)).1
    simp [legal, hen] at hl
  | send | encode | decode => simp [waits] at hw
  | read | enable | reset | close =>
    exact ⟨(legal_not_init (by decide) (by decide) (by decide)).mp hl, by decide⟩

/-- Outside ENABLED no run is in progress and no event is latched (R92, R19). -/
theorem BlockSound.idle {s : State} (h : BlockSound s) (hl : s.life ≠ .enabled) :
    s.engStep = 0#4 ∧ s.evtPend ≠ true :=
  ⟨by_contra fun hne => hl (h.run hne).1, fun he => hl (h.latch he)⟩

theorem initBody_soundMove {s : State} (h : BlockSound s) (p : Nat) (snap : Operands) :
    ∃ x u, Answered p s x ∧ initBody p snap s = setPort p x u ∧ SoundMove s u := by
  obtain ⟨x, hx, ⟨-, he⟩ | ⟨hoff, a, d, he | he⟩⟩ := initBody_cases p snap s
  · exact ⟨x, s, hx, he, .refl h⟩
  all_goals
    obtain ⟨hidle, hlatch⟩ := h.idle (by simp [hoff])
    refine ⟨x, _, hx, he, ?_, rfl, by simp [hoff]⟩
  · exact { h with
      outq_le := Nat.zero_le _, inq_le := Nat.zero_le _
      outq_sizes := by simp, inq_sizes := by simp
      fifos_unused := fun _ => ⟨rfl, rfl⟩
      run := fun hne => absurd hidle hne
      send := fun h9 => by simp [hidle] at h9
      latch := fun hev => absurd hev hlatch }
  · exact { h with
      fifos_unused := fun _ => h.fifos_unused (by simp [hoff])
      run := fun hne => absurd hidle hne
      latch := fun hev => absurd hev hlatch }

theorem legal_lifecycle {c : Command} {l : Life} (hc : c = .enable ∨ c = .reset ∨ c = .close) :
    legal c l = true ↔ (l = .ready ∨ l = .enabled) := by
  rcases hc with rfl | rfl | rfl <;> exact legal_not_init (by decide) (by decide) (by decide)

theorem lifecycleBody_soundMove {s : State} (h : BlockSound s) {c : Command}
    (hc : c = .enable ∨ c = .reset ∨ c = .close) (hidle : legal c s.life = true → busy s = false)
    (p : Nat) (snap : Operands) :
    ∃ x u, Answered p s x ∧ runCommand c p snap s = setPort p x u ∧ SoundMove s u := by
  obtain ⟨x, hx, he | ⟨hlive, l, e, r, hl, hev, he⟩⟩ := lifecycleBody_cases c hc p snap s
  · exact ⟨x, s, hx, he, .refl h⟩
  · have hbusy : ¬s.engStep ≠ 0#4 := by
      rw [← busy_iff, hidle ((legal_lifecycle hc).mpr hlive)]
      decide
    refine ⟨x, _, hx, he, ?_, rfl, fun _ => hl⟩
    exact { h with
      fifos_unused := fun hn => absurd hl hn
      run := fun hne => absurd hne hbusy
      latch := fun ht => (hev ht).2 }

/-- What Encode accepts is 3 to 13 bytes (R64). -/
theorem encodeFrame_size {f : Frame} {pkt : Packet} (h : encodeFrame f = .ok pkt) :
    3 ≤ pkt.length ∧ pkt.length ≤ 13 := by
  unfold encodeFrame at h
  split at h
  · cases h
  split at h
  · cases h
  rename_i hdlc _
  cases h
  have hpay : (payload f).length ≤ 8 := by simp [payload]
  have hhdr : (headerOf f).length = 3 ∨ (headerOf f).length = 5 := by
    unfold headerOf
    split
    · exact .inr rfl
    · exact .inl rfl
  rw [List.length_append]
  omega

theorem sendBody_soundMove {s : State} (h : BlockSound s) (p : Nat) (snap : Operands) :
    ∃ x u, Answered p s x ∧ sendBody p snap s = setPort p x u ∧ SoundMove s u := by
  obtain ⟨x, hx, he | ⟨hlive, pkt, hpkt, hlen, he⟩⟩ := sendBody_cases p snap s
  · exact ⟨x, s, hx, he, .refl h⟩
  · refine ⟨x, _, hx, he, ?_, rfl, id⟩
    exact { h with
      outq_le := by simpa using hlen
      outq_sizes := by
        intro q hq
        rcases List.mem_append.mp hq with hq | hq
        · exact h.outq_sizes q hq
        · rw [List.mem_singleton.mp hq]
          exact encodeFrame_size hpkt
      fifos_unused := fun hn => absurd hlive hn
      send := fun _ => by simp
      latch := fun hev => by
        by_cases hen : s.life = .enabled
        · exact hen
        · exact h.latch (by simpa [hen] using hev) }

theorem readBody_soundMove {s : State} (h : BlockSound s)
    (hne : legal .read s.life = true → s.inq ≠ []) (p : Nat) (snap : Operands) :
    ∃ x u, Answered p s x ∧ readBody p snap s = setPort p x u ∧ SoundMove s u := by
  by_cases hl : legal .read s.life = true
  · obtain ⟨x, hx, he | ⟨hlive, pkt, rest, hq, he⟩⟩ := readBody_cases p snap (hne hl)
    · exact ⟨x, s, hx, he, .refl h⟩
    · have hle := h.inq_le
      have hsz := h.inq_sizes
      rw [hq] at hle hsz
      refine ⟨x, _, hx, he, ?_, rfl, id⟩
      exact { h with
        inq_le := Nat.le_of_succ_le hle
        inq_sizes := fun q hq' => hsz q (List.mem_cons_of_mem _ hq')
        fifos_unused := fun hn => absurd hlive hn }
  · exact ⟨{ portOf s p with result := codeOf .errState }, s, ⟨rfl, .errState, rfl, by decide⟩,
      by simp only [readBody, hl]; rfl, .refl h⟩

/-- A command's body, run when it need not wait, answers on its port and moves the block soundly. -/
theorem runCommand_soundMove {s : State} (h : BlockSound s) {c : Command}
    (hw : legal c s.life = true → waits c s = false) (p : Nat) (snap : Operands) :
    ∃ x u, Answered p s x ∧ runCommand c p snap s = setPort p x u ∧ SoundMove s u := by
  cases c with
  | init => exact initBody_soundMove h p snap
  | enable => exact lifecycleBody_soundMove h (.inl rfl) hw p snap
  | send => exact sendBody_soundMove h p snap
  | read => exact readBody_soundMove h (fun hl => by simpa [waits] using hw hl) p snap
  | reset => exact lifecycleBody_soundMove h (.inr (.inl rfl)) hw p snap
  | close => exact lifecycleBody_soundMove h (.inr (.inr rfl)) hw p snap
  | encode =>
    obtain ⟨x, hx, he⟩ := encodeBody_cases p snap s
    exact ⟨x, s, hx, he, .refl h⟩
  | decode =>
    obtain ⟨x, hx, he⟩ := decodeBody_cases p snap s
    exact ⟨x, s, hx, he, .refl h⟩

/-- A command's body run on a port with nothing pending leaves the state sound, whatever RESULT that
port showed before. -/
theorem runCommand_sound {s : State} (h : BlockSound s) {c : Command} {p : Nat}
    (hw : legal c s.life = true → waits c s = false) (hp : p < s.ports.length)
    (hn : (portOf s p).pend = none)
    (ho : ∀ q, q ≠ p → portSound s.life (portOf s q) = true) (snap : Operands) :
    sound (runCommand c p snap s) = true := by
  obtain ⟨x, u, ⟨hpend, rc, hres, hrc⟩, he, hm⟩ := runCommand_soundMove h hw p snap
  rw [he]
  exact sound_setPort hm.block (by rw [hm.ports]; exact hp)
    (portSound_idle (hpend.trans hn) hres hrc) fun q hq => hm.portSound (ho q hq)

theorem issueCommand_sound {s : State} (hs : sound s = true) {p : Nat} (hp : p < s.ports.length)
    (c : Command) : sound (issueCommand p c (runCommand c p) s) = true := by
  obtain ⟨hb, hports⟩ := (sound_iff s).mp hs
  rcases issueCommand_cases p c (runCommand c p) s with he | ⟨-, hl, hw, he⟩ | ⟨hn, hlw, he⟩
  · rw [he]
    exact hs
  · obtain ⟨hlive, hc⟩ := hb.waiting hl hw
    rw [he]
    exact sound_setPort hb hp (portSound_latched hlive hc) fun q _ => hports q
  · rw [he]
    exact runCommand_sound hb (fun hl => by simpa [hl] using hlw) hp hn (fun q _ => hports q) _

theorem illegalCommand_sound {s : State} (hs : sound s = true) {p : Nat} (hp : p < s.ports.length) :
    sound (illegalCommand p s) = true := by
  obtain ⟨hb, hports⟩ := (sound_iff s).mp hs
  unfold illegalCommand
  split
  · exact hs
  · rename_i hn
    exact sound_setPort hb hp (portSound_idle (c := .errIllegalCmd) hn rfl (by decide))
      fun q _ => hports q

/-- Clearing what is pending leaves RESULT at 0xFF, which is sound only once the command has run; so
the block and the other ports are what `runCommand_sound` is given. -/
theorem portTurn_sound {s : State} (hs : sound s = true) (p : Nat) :
    sound (portTurn p s) = true := by
  obtain ⟨hb, hports⟩ := (sound_iff s).mp hs
  rcases portTurn_cases p s with he | ⟨pc, hpend, hw, he⟩
  · rw [he]
    exact hs
  · have hp : p < s.ports.length := (List.getElem?_eq_some_iff.mp (getElem?_of_pend hpend)).1
    rw [he]
    refine runCommand_sound (hb.setPort p _) (fun _ => ?_) (by simpa using hp) ?_ ?_ _
    · simpa [waits, busy] using hw
    · rw [portOf_setPort _ hp]
    · intro q hq
      rw [portOf_setPort_ne _ hq]
      exact hports q

theorem writePort_sound {s : State} (hs : sound s = true) {p : Nat} (hp : p < s.ports.length)
    (off : Nat) (v : Word) : sound (writePort p off v s) = true := by
  obtain ⟨hb, hports⟩ := (sound_iff s).mp hs
  exact sound_setPort hb hp (hports p) fun q _ => hports q

/-! ### The engine -/

/-- The outcome `o` of an engine step from `s` is a next state, reached by a sound move. -/
def EngineMoves (s : State) (o : Host.Outcome State Fault Refusal) : Prop :=
  ∃ t, o = .next t ∧ SoundMove s t

theorem engineMoves_next {s t : State} {k : BitVec 4}
    {body : State → Host.Outcome State Fault Refusal} (hk : s.engStep = k) (hb : body s = .next t)
    (hm : SoundMove s t) : EngineMoves s (atStep k body s) := ⟨t, (atStep_at hk).trans hb, hm⟩

theorem execS0Idle_moves {s : State} (h : BlockSound s) (hk : s.engStep = 0#4) :
    EngineMoves s (execS0Idle s) := by
  refine engineMoves_next hk rfl ?_
  by_cases hr : runMayStart s = true
  · rw [if_pos hr]
    simp only [runMayStart, Bool.and_eq_true, decide_eq_true_eq, Bool.not_eq_true'] at hr
    obtain ⟨⟨⟨-, hen⟩, hnf⟩, -⟩ := hr
    refine ⟨?_, rfl, id⟩
    exact { h with
      step_le := by simp
      run := fun _ => ⟨hen, hnf⟩
      send := fun h9 => by simp at h9
      woke := fun hw => by simp at hw
      latch := fun he => by simp at he }
  · rw [if_neg hr]
    exact .refl h

theorem execS1Standby_moves {s : State} (h : BlockSound s) (hk : s.engStep = 1#4) :
    EngineMoves s (execS1Standby s) :=
  engineMoves_next hk rfl
    (((SoundMove.refl h).logRadio _).goto (by simp [hk]) (by decide) (.inl (by decide)))

theorem execS2Clear_moves {s : State} (h : BlockSound s) (hk : s.engStep = 2#4) :
    EngineMoves s (execS2Clear s) := by
  have hask : SoundMove s (askFlags s).2 := ((SoundMove.refl h).logRadio _).draw _ _
  exact engineMoves_next hk rfl
    ((hask.record _ _).goto (by simp [hk]) (by decide) (.inl (by decide)))

theorem execS3Listen_moves {s : State} (h : BlockSound s) (hk : s.engStep = 3#4) :
    EngineMoves s (execS3Listen s) := by
  have hlog := (SoundMove.refl h).logRadio .listen
  refine engineMoves_next hk rfl ?_
  split
  · exact hlog.goto (by simp [hk]) (by decide) (.inl (by decide))
  · exact hlog.goto (by simp [hk]) (by decide) (.inl (by decide))

theorem execS4Poll_moves {s : State} (h : BlockSound s) (hk : s.engStep = 4#4) :
    EngineMoves s (execS4Poll s) := by
  have hask : SoundMove s (askCount s).2 := ((SoundMove.refl h).logRadio _).draw _ _
  refine engineMoves_next hk rfl ?_
  unfold testPending
  split
  · exact hask.goto (by simp [hk]) (by decide) (.inl (by decide))
  · exact hask.goto (by simp [hk]) (by decide) (.inl (by decide))

/-- S5 once the radio answered: a packet queued or dropped, or the run ended by a fault (R97). -/
theorem takePacket_soundMove {s t : State} (h : SoundMove s t) (hrun : t.engStep ≠ 0#4)
    (n : BitVec 6) (b : Vector Byte 32) : SoundMove s (takePacket n b t) := by
  unfold takePacket
  split
  · have hend := h.endRun
    refine ⟨?_, h.ports, h.life⟩
    exact { hend.block with run := fun hne => absurd rfl hne }
  split
  · rename_i u hu
    obtain ⟨hlen, rfl⟩ := pushIn_some hu
    have hpush : SoundMove s { t with inq := t.inq ++ [packetOf n.toNat b] } := by
      refine ⟨?_, h.ports, h.life⟩
      exact { h.block with
        inq_le := by simpa using hlen
        inq_sizes := by
          intro q hq
          rcases List.mem_append.mp hq with hq | hq
          · exact h.block.inq_sizes q hq
          · rw [List.mem_singleton.mp hq]
            simp [packetOf]
        fifos_unused := fun hoff => absurd (.inr (h.block.run hrun).1) hoff }
    have hgo := hpush.goto (k := 4#4) hrun (by decide) (.inl (by decide))
    refine ⟨?_, h.ports, h.life⟩
    exact { hgo.block with woke := fun _ => by simp }
  · exact (h.record _ _).goto hrun (by decide) (.inl (by decide))

theorem execS5Read_moves {s : State} (h : BlockSound s) (hk : s.engStep = 5#4) :
    EngineMoves s (execS5Read s) := by
  have hask : SoundMove s (askPacket s).2 := ((SoundMove.refl h).logRadio _).draw _ _
  exact engineMoves_next hk rfl (takePacket_soundMove hask (by simp [hk]) _ _)

theorem execS6MaxRt_moves {s : State} (h : BlockSound s) (hk : s.engStep = 6#4) :
    EngineMoves s (execS6MaxRt s) := by
  refine engineMoves_next hk rfl ?_
  split
  · have hab : SoundMove s (abandonFrame s) := ((SoundMove.refl h).logRadio .flushTx).record _ _
    exact hab.goto (by simp [abandonFrame, hk]) (by decide) (.inl (by decide))
  · exact (SoundMove.refl h).goto (by simp [hk]) (by decide) (.inl (by decide))

theorem execS7TxDs_moves {s : State} (h : BlockSound s) (hk : s.engStep = 7#4) :
    EngineMoves s (execS7TxDs s) := by
  refine engineMoves_next hk rfl ?_
  split
  · exact ((SoundMove.refl h).record _ _).goto (by simp [hk]) (by decide) (.inl (by decide))
  · exact (SoundMove.refl h).goto (by simp [hk]) (by decide) (.inl (by decide))

theorem execS8Chan_moves {s : State} (h : BlockSound s) (hk : s.engStep = 8#4) :
    EngineMoves s (execS8Chan s) := by
  refine engineMoves_next hk rfl ?_
  split
  · rename_i hq
    have hask : SoundMove s (askChannel s).2 := ((SoundMove.refl h).logRadio _).draw _ _
    have hwaiting : (askChannel s).2.outq ≠ [] := by
      simpa [nonEmptyOut, List.length_pos_iff] using hq
    unfold senseChannel
    split
    · exact hask.goto (by simp [hk]) (by decide) (.inr hwaiting)
    · exact (hask.record _ _).goto (by simp [hk]) (by decide) (.inl (by decide))
  · exact (SoundMove.refl h).goto (by simp [hk]) (by decide) (.inl (by decide))

theorem execS9Write_moves {s : State} (h : BlockSound s) (hk : s.engStep = 9#4) :
    EngineMoves s (execS9Write s) := by
  have hen : s.life = .enabled := (h.run (by simp [hk])).1
  cases hq : s.outq with
  | nil => exact absurd hq (h.send hk)
  | cons pkt rest =>
    have hle := h.outq_le
    have hsz := h.outq_sizes
    rw [hq] at hle hsz
    refine engineMoves_next (t := goto 10#4 (logRadio (.write pkt) { s with outq := rest })) hk
      (by simp [popOut, hq]) ⟨?_, rfl, id⟩
    exact { h with
      outq_le := Nat.le_of_succ_le hle
      outq_sizes := fun q hq' => hsz q (List.mem_cons_of_mem _ hq')
      fifos_unused := fun hoff => absurd (.inr hen) hoff
      step_le := by simp
      run := fun _ => h.run (by simp [hk])
      send := fun h9 => by simp at h9
      woke := fun _ => by simp }

theorem execS10Yield_moves {s : State} (h : BlockSound s) (hk : s.engStep = 10#4) :
    EngineMoves s (execS10Yield s) := by
  refine engineMoves_next hk rfl ?_
  split
  · have hemit : SoundMove s (emit .yieldReq s) := ⟨{ h with }, rfl, id⟩
    exact hemit.endRun
  · exact (SoundMove.refl h).endRun

/-- The engine's instruction at its own position moves soundly. -/
theorem exec_position_moves {s : State} (h : BlockSound s) {i : Instr}
    (hi : encode i = .position s.engStep) : EngineMoves s (exec i s) := by
  cases i with
  | init | enable | send | read | reset | close | encode | decode | pktStd | pktExt => cases hi
  | s0Idle => exact execS0Idle_moves h (Encoded.position.inj hi).symm
  | s1Standby => exact execS1Standby_moves h (Encoded.position.inj hi).symm
  | s2Clear => exact execS2Clear_moves h (Encoded.position.inj hi).symm
  | s3Listen => exact execS3Listen_moves h (Encoded.position.inj hi).symm
  | s4Poll => exact execS4Poll_moves h (Encoded.position.inj hi).symm
  | s5Read => exact execS5Read_moves h (Encoded.position.inj hi).symm
  | s6MaxRt => exact execS6MaxRt_moves h (Encoded.position.inj hi).symm
  | s7TxDs => exact execS7TxDs_moves h (Encoded.position.inj hi).symm
  | s8Chan => exact execS8Chan_moves h (Encoded.position.inj hi).symm
  | s9Write => exact execS9Write_moves h (Encoded.position.inj hi).symm
  | s10Yield => exact execS10Yield_moves h (Encoded.position.inj hi).symm

/-- The engine's instructions, in the order of their positions (R16). -/
def engineInstrs : List Instr :=
  [.s0Idle, .s1Standby, .s2Clear, .s3Listen, .s4Poll, .s5Read, .s6MaxRt, .s7TxDs, .s8Chan, .s9Write,
   .s10Yield]

theorem exists_encode_position :
    ∀ v : BitVec 4, v.toNat ≤ 10 → ∃ i ∈ engineInstrs, encode i = .position v := by
  decide

/-- In a sound state the engine's step stops nowhere and its move is sound. -/
theorem engineTurn_moves {s : State} (h : BlockSound s) : EngineMoves s (engineTurn s) := by
  obtain ⟨i, -, hi⟩ := exists_encode_position s.engStep h.step_le
  rw [engineTurn_eq hi]
  exact exec_position_moves h hi

/-! ### The step -/

theorem raiseIrq_soundMove {s : State} (h : BlockSound s) : SoundMove s (raiseIrq s) := by
  unfold raiseIrq
  split
  · rename_i hen
    exact ⟨{ h with latch := fun _ => hen }, rfl, id⟩
  · exact .refl h

theorem blockReset_sound {s : State} (h : BlockSound s) : sound (blockReset s) = true := by
  have hb : BlockSound (blockReset s) :=
    { params := by simpa [blockReset] using h.params
      outq_le := Nat.zero_le _, inq_le := Nat.zero_le _
      outq_sizes := by simp [blockReset], inq_sizes := by simp [blockReset]
      fifos_unused := fun _ => ⟨rfl, rfl⟩
      step_le := by simp [blockReset]
      run := fun hne => absurd rfl hne
      send := fun h9 => by simp [blockReset] at h9
      woke := fun hw => by simp [blockReset] at hw
      latch := fun he => by simp [blockReset] at he }
  refine (sound_iff _).mpr ⟨hb, (forall_ports_iff _).mp fun x hx => ?_⟩
  obtain ⟨-, -, rfl⟩ := List.mem_map.mp hx
  exact portSound_reset _

/-- Settles O57: the cases of a step are the issue of a command, a port's and the engine's step, a
register write, RST, and moves that leave ports and LIFE alone. -/
theorem everyStepKeepsSoundness : Obligations.EveryStepKeepsSoundness := by
  intro s t hs h
  obtain ⟨hb, hports⟩ := (sound_iff s).mp hs
  obtain ⟨l, d, s', -, rfl, hc⟩ := step_next h
  have hb' : BlockSound { s with inputs := l, draws := d } := { hb with }
  have hs' : sound { s with inputs := l, draws := d } = true := hs
  rcases hc with ⟨r, -, rfl⟩ | ⟨_, _, v, off, -, rfl⟩ | ⟨_, _, v, p, off, -, hp, rfl⟩ |
    ⟨v, p, -, hp, -, rfl⟩ | ⟨v, p, c, -, hp, -, he⟩ | ⟨-, rfl⟩ | ⟨-, rfl⟩ | ⟨-, he⟩ |
    ⟨p, -, rfl⟩ | ⟨a, -, rfl⟩
  · exact hs
  · exact hs
  · exact writePort_sound (s := { s with inputs := l, draws := d, bus := .done }) hs hp off v
  · exact illegalCommand_sound (s := { s with inputs := l, draws := d, bus := .done }) hs hp
  · rw [exec_instr] at he
    rw [(onPort_next he).2]
    exact issueCommand_sound (s := { s with inputs := l, draws := d, bus := .done }) hs hp c
  · exact (raiseIrq_soundMove hb').sound hs'
  · exact blockReset_sound hb'
  · obtain ⟨t', ht', hm⟩ := engineTurn_moves hb'
    rw [ht'] at he
    cases he
    exact hm.sound hs'
  · exact portTurn_sound hs' p
  · exact hs

/-! ### An input's turn, a radio answer, and a step that holds -/

/-- An admitted write to a port's CMD is the issue of its word (R33, R106). -/
theorem busWrite_command {s : State} {p : Nat} (w : Word) (hp : p < s.ports.length)
    (hbase : s.params.base % 0x1000 = 0) :
    busWrite (portAddress s p 0) 4 w s = issueWord p w { s with bus := .done } := by
  have haligned : portAddress s p 0 % 4 = 0 := by
    unfold portAddress
    omega
  have hal : admitted (portAddress s p 0) 4 = true := by simp [admitted, haligned]
  simp only [busWrite, busTarget_port hp (by decide : 0 < 0x100), hal, if_true, writeTarget]
  rfl

theorem issueWord_ok {p : Nat} {w : Word} {i : Instr} (h : decode (.command p w) = .ok i)
    (s : State) : issueWord p w s = exec i s := by
  rw [issueWord, h]

/-- Settles O4: each clause is `step_eq` at that input. -/
theorem stepRunsTheDecodedInstruction : Obligations.StepRunsTheDecodedInstruction := by
  intro s
  have hturn : ∀ i, (takeInput s).1 = i → step s = takeTurn i (takeInput s).2 := by
    rintro i rfl
    exact step_eq s
  have hwrite : ∀ (p : Nat) (w : Word), (takeInput s).1 = .busWrite (portAddress s p 0) 4 w →
      p < s.ports.length → s.params.base % 0x1000 = 0 →
      step s = issueWord p w { (takeInput s).2 with bus := .done } := by
    intro p w hi hp hbase
    have haddr : portAddress s p 0 = portAddress (takeInput s).2 p 0 := by simp [portAddress]
    rw [hturn _ hi, haddr]
    exact busWrite_command w (by simpa using hp) (by simpa using hbase)
  refine ⟨?_, ?_, hwrite, fun addr width hi => hturn _ hi, fun addr width v hi => hturn _ hi,
    fun hi => hturn _ hi, fun p hi => hturn _ hi, ?_, fun i rest h => takeInput_listed h, ?_⟩
  · intro p w i hi hp hbase hd
    rw [hwrite p w hi hp hbase, issueWord_ok hd]
  · intro i hi hd
    rw [hturn _ hi, takeTurn, engineTurn, takeInput_engStep, hd]
  · intro a hi
    rw [hturn _ hi, takeTurn, takeInput_answers]
  · intro h
    simp [takeInput, h]

/-- Settles O37, by `takeAnswer`'s two outcomes. -/
theorem radioAnswerMovesNothingElse : Obligations.RadioAnswerMovesNothingElse := by
  intro α kind free s
  obtain ⟨a, d, he⟩ := draw_snd kind free s
  have ha : a = (draw kind free s).2.answers := by rw [he]
  have hd : d = (draw kind free s).2.draws := by rw [he]
  refine ⟨a, d, he, fun hnone => ?_, fun x v before after hs hbefore hx => ?_⟩
  · have hdraw : draw kind free s = (free s.draws, { s with draws := s.draws + 1 }) := by
      rw [draw, takeAnswer_none hnone]
    rw [ha, hd, hdraw]
    exact ⟨rfl, rfl, rfl⟩
  · have hdraw : draw kind free s = (v, { s with answers := before ++ after }) := by
      rw [draw, hs, takeAnswer_append hx after hbefore]
    rw [ha, hd, hdraw]
    exact ⟨rfl, rfl, rfl⟩

/-- An engine instruction's rule is guarded by its own position (R8, R16). -/
theorem exec_eq_atStep {i : Instr} {k : BitVec 4} (hi : encode i = .position k) :
    ∃ body, ∀ s, exec i s = atStep k body s := by
  cases i with
  | init | enable | send | read | reset | close | encode | decode | pktStd | pktExt => cases hi
  | s0Idle | s1Standby | s2Clear | s3Listen | s4Poll | s5Read | s6MaxRt | s7TxDs | s8Chan | s9Write
  | s10Yield =>
    cases hi
    exact ⟨_, fun s => rfl⟩

/-- Settles O35: every engine instruction is `atStep` of its own position. -/
theorem engineHoldsAwayFromItsPosition : Obligations.EngineHoldsAwayFromItsPosition := by
  intro s i k hi hne
  obtain ⟨body, he⟩ := exec_eq_atStep hi
  rw [he]
  exact atStep_away hne

end Sys2Proof.Machine
end

section
/-! The state family's proofs, encodings: at each of the three places the decoder and the encoder
are each other's inverse. -/

namespace Sys2Proof.Machine

open Sys2Proof Config

/-! ### Command words -/

theorem decode_encode_instr (c : Command) (p : Nat) :
    decode (encode (c.instr p)) = .ok (c.instr p) := by
  cases c <;> rfl

/-- The match on a command word is on all its 32 bits (R54, R55): it gives the word back. -/
theorem encode_of_decodeCommand {w : Word} {c : Command} (h : decodeCommand w = some c) (p : Nat) :
    encode (c.instr p) = .command p w := by
  unfold decodeCommand at h
  repeat' split at h
  all_goals cases h
  all_goals exact congrArg (Encoded.command p) (Eq.symm ‹_›)

/-! ### Packets -/

@[simp] theorem packetByte0_msb (ext : Bool) (dlc : BitVec 7) :
    (packetByte0 ext dlc).msb = ext := by
  revert ext dlc
  decide

@[simp] theorem packetByte0_setWidth (ext : Bool) (dlc : BitVec 7) :
    (packetByte0 ext dlc).setWidth 7 = dlc := by
  revert ext dlc
  decide

/-- Byte 0 is its extended flag and its dlc field, and nothing else (R50). -/
theorem packetByte0_msb_setWidth : ∀ b : Byte, packetByte0 b.msb (b.setWidth 7) = b := by
  decide

/-- A packet whose size has a format is read by its extended flag (R50, R51). -/
theorem decodePacket_cons {b0 : Byte} {body : List Byte} (h3 : 3 ≤ 1 + body.length)
    (h32 : 1 + body.length ≤ 32) (p : Nat) :
    decodePacket p (b0 :: body) =
      .ok (if b0.msb then .pktExt p (b0.setWidth 7) body else .pktStd p (b0.setWidth 7) body) := by
  have hlo : ¬(b0 :: body).length < 3 := by rw [List.length_cons]; omega
  have hhi : ¬(b0 :: body).length > 32 := by rw [List.length_cons]; omega
  simp only [decodePacket, hlo, hhi, if_false]
  split <;> rfl

/-- What has a packet format has a byte 0 and a size the format admits. -/
theorem decodePacket_ok {p : Nat} {bytes : List Byte} {i : Instr}
    (h : decodePacket p bytes = .ok i) :
    ∃ (b0 : Byte) (body : List Byte), bytes = b0 :: body ∧
      i = if b0.msb then .pktExt p (b0.setWidth 7) body else .pktStd p (b0.setWidth 7) body := by
  unfold decodePacket at h
  split at h
  · cases h
  split at h
  · cases h
  cases bytes with
  | nil => cases h
  | cons b0 body =>
    refine ⟨b0, body, rfl, ?_⟩
    simp only at h
    split at h <;> cases h
    · exact (if_pos ‹_›).symm
    · exact (if_neg ‹_›).symm

/-! ### Positions -/

theorem encode_of_decodePosition {v : BitVec 4} {i : Instr} (h : decodePosition v = .ok i) :
    encode i = .position v := by
  unfold decodePosition at h
  repeat' split at h
  all_goals cases h
  all_goals exact congrArg Encoded.position (Eq.symm ‹_›)

/-! ### The obligations -/

/-- Settles O1: a command by its word, a packet by byte 0 and its size, a position by its value. -/
theorem decodeOfEncodeIsIdentity : Obligations.DecodeOfEncodeIsIdentity := by
  intro i hwf
  cases i with
  | init p => exact decode_encode_instr .init p
  | enable p => exact decode_encode_instr .enable p
  | send p => exact decode_encode_instr .send p
  | read p => exact decode_encode_instr .read p
  | reset p => exact decode_encode_instr .reset p
  | close p => exact decode_encode_instr .close p
  | encode p => exact decode_encode_instr .encode p
  | decode p => exact decode_encode_instr .decode p
  | pktStd p dlc body | pktExt p dlc body =>
    simp only [Instr.wellFormed, longEnough, shortEnough, Bool.and_eq_true,
      decide_eq_true_eq] at hwf
    obtain ⟨⟨-, h3⟩, h32⟩ := hwf
    simp [encode, decode, decodePacket_cons h3 h32]
  | s0Idle | s1Standby | s2Clear | s3Listen | s4Poll | s5Read | s6MaxRt | s7TxDs | s8Chan | s9Write
  | s10Yield => rfl

/-- Settles O2, place by place. -/
theorem encodeOfDecodeIsIdentity : Obligations.EncodeOfDecodeIsIdentity := by
  intro e i h
  cases e with
  | command p w =>
    obtain ⟨c, hc, rfl⟩ := decode_command_ok h
    exact encode_of_decodeCommand hc p
  | packet p bytes =>
    obtain ⟨b0, body, rfl, rfl⟩ := decodePacket_ok h
    have hb := packetByte0_msb_setWidth b0
    cases hm : b0.msb with
    | true => rw [hm] at hb; simp [encode, hb]
    | false => rw [hm] at hb; simp [encode, hb]
  | position v => exact encode_of_decodePosition h

/-- Settles O3, by running the decoder on each sample. -/
theorem sampleEncodingsDecode : Obligations.SampleEncodingsDecode :=
  ⟨rfl, rfl, rfl, rfl, rfl, rfl, rfl, rfl⟩

end Sys2Proof.Machine
end

section
/-! The state family's proofs, invariants over every step: what a command, the engine and a step can
do to the block is said once as an effect, and each invariant takes the effects apart. -/

namespace Sys2Proof.Machine

open Sys2Proof Config

/-! ### Writing one port's record -/

theorem setPort_portOf (p : Nat) (s : State) : setPort p (portOf s p) s = s := by
  have hset : s.ports.set p (portOf s p) = s.ports := by
    by_cases hp : p < s.ports.length
    · simp [portOf, hp]
    · exact List.set_eq_of_length_le (by omega)
  rw [setPort, hset]

theorem setPort_setPort (p : Nat) (x y : Port) (s : State) :
    setPort p x (setPort p y s) = setPort p x s := by
  simp [setPort]

/-- Writing port `p`'s record leaves the other ports and their number as they were. -/
theorem setPort_other {p q : Nat} (x : Port) (s : State) (h : q ≠ p) :
    (setPort p x s).ports[q]? = s.ports[q]? ∧ (setPort p x s).ports.length = s.ports.length := by
  simp [List.getElem?_set_ne (Ne.symm h)]

/-! ### What a command can do -/

/-- What command `c` can make of the block, the record of the port it runs on left out. -/
inductive CommandEffect (c : Command) (s : State) : State → Prop where
  /-- It is latched, dropped or refused, or it is ENCODE or DECODE. -/
  | kept : CommandEffect c s s
  /-- INIT with a good probe (R109). -/
  | opened (a : List Answer) (d : Nat) (r : List RadioRequest) (hc : c = .init)
      (hl : s.life = .off) :
      CommandEffect c s
        { s with answers := a, draws := d, rtrace := r, outq := [], inq := [], life := .ready }
  /-- INIT with a failed probe (R119). -/
  | escalated (a : List Answer) (d : Nat) (r : List RadioRequest) (e : List OutEvent)
      (hc : c = .init) (hl : s.life = .off) :
      CommandEffect c s
        { s with answers := a, draws := d, rtrace := r, etrace := e, life := .fatal }
  /-- ENABLE, RESET or CLOSE where legal (R110, R113, R115). -/
  | moved (l : Life) (e : Bool) (r : List RadioRequest) (hc : isLifecycle c = true)
      (hl : s.life = .ready ∨ s.life = .enabled) :
      CommandEffect c s { s with life := l, evtPend := e, rtrace := r }
  /-- SEND of a packet that OUTQ has room for (R111). -/
  | queued (pkt : Packet) (e : Bool) (hc : c = .send) (hl : s.life = .ready ∨ s.life = .enabled)
      (hroom : s.outq.length < s.params.qcap) :
      CommandEffect c s { s with outq := s.outq ++ [pkt], evtPend := e }
  /-- READ of INQ's head (R112). -/
  | popped (pkt : Packet) (rest : List Packet) (hc : c = .read)
      (hl : s.life = .ready ∨ s.life = .enabled) (hq : s.inq = pkt :: rest) :
      CommandEffect c s { s with inq := rest }

theorem CommandEffect.ports {c : Command} {s u : State} (h : CommandEffect c s u) :
    u.ports = s.ports := by
  cases h <;> rfl

/-- No command touches ENG_STEP or ENG_FAULT (R16, R20). -/
theorem CommandEffect.engine {c : Command} {s u : State} (h : CommandEffect c s u) :
    u.engStep = s.engStep ∧ u.engFault = s.engFault := by
  cases h <;> exact ⟨rfl, rfl⟩

/-- In FATAL no command has an effect but on its port (R108, R119). -/
theorem CommandEffect.of_fatal {c : Command} {s u : State} (h : CommandEffect c s u)
    (hf : s.life = .fatal) : u = s := by
  cases h with
  | kept => rfl
  | opened _ _ _ _ hl | escalated _ _ _ _ _ hl | moved _ _ _ _ hl | queued _ _ _ hl
  | popped _ _ _ hl => simp [hf] at hl

/-- What INIT, ENABLE, RESET and CLOSE do not do, no command does: it keeps LIFE (R18). -/
theorem CommandEffect.life_eq {c : Command} {s u : State} (h : CommandEffect c s u)
    (hc : isLifecycle c = false) : u.life = s.life := by
  cases h with
  | kept | queued | popped => rfl
  | opened _ _ _ hi | escalated _ _ _ _ hi => simp [hi, isLifecycle] at hc
  | moved _ _ _ hi => simp [hi] at hc

/-- No effect depends on a port's record. -/
theorem CommandEffect.of_setPort {c : Command} {s u : State} {p : Nat} {y : Port}
    (h : CommandEffect c (setPort p y s) u) :
    ∃ u', CommandEffect c s u' ∧ u = setPort p y u' := by
  cases h with
  | kept => exact ⟨_, .kept, rfl⟩
  | opened a d r hc hl => exact ⟨_, .opened a d r hc hl, rfl⟩
  | escalated a d r e hc hl => exact ⟨_, .escalated a d r e hc hl, rfl⟩
  | moved l e r hc hl => exact ⟨_, .moved l e r hc hl, rfl⟩
  | queued pkt e hc hl hroom => exact ⟨_, .queued pkt e hc hl hroom, rfl⟩
  | popped pkt rest hc hl hq => exact ⟨_, .popped pkt rest hc hl hq, rfl⟩

theorem initBody_effect (p : Nat) (snap : Operands) (s : State) :
    ∃ x u, initBody p snap s = setPort p x u ∧ CommandEffect .init s u := by
  obtain ⟨x, -, ⟨-, he⟩ | ⟨hoff, a, d, he | he⟩⟩ := initBody_cases p snap s
  · exact ⟨x, _, he, .kept⟩
  · exact ⟨x, _, he, .opened a d _ rfl hoff⟩
  · exact ⟨x, _, he, .escalated a d _ _ rfl hoff⟩

theorem lifecycleBody_effect {c : Command} (hc : c = .enable ∨ c = .reset ∨ c = .close) (p : Nat)
    (snap : Operands) (s : State) :
    ∃ x u, runCommand c p snap s = setPort p x u ∧ CommandEffect c s u := by
  obtain ⟨x, -, he | ⟨hlive, l, e, r, -, -, he⟩⟩ := lifecycleBody_cases c hc p snap s
  · exact ⟨x, _, he, .kept⟩
  · exact ⟨x, _, he, .moved l e r (by rcases hc with rfl | rfl | rfl <;> rfl) hlive⟩

theorem sendBody_effect (p : Nat) (snap : Operands) (s : State) :
    ∃ x u, sendBody p snap s = setPort p x u ∧ CommandEffect .send s u := by
  obtain ⟨x, -, he | ⟨hlive, pkt, -, hroom, he⟩⟩ := sendBody_cases p snap s
  · exact ⟨x, _, he, .kept⟩
  · exact ⟨x, _, he, .queued pkt _ rfl hlive hroom⟩

/-- READ's body on an empty INQ writes its port only: it waits or is refused (log entry 13). -/
theorem readBody_empty {s : State} (p : Nat) (snap : Operands) (h : s.inq = []) :
    ∃ x, readBody p snap s = setPort p x s := by
  unfold readBody
  split
  · rw [popIn_eq_none.mpr h]
    exact ⟨_, rfl⟩
  · exact ⟨_, rfl⟩

theorem readBody_effect (p : Nat) (snap : Operands) (s : State) :
    ∃ x u, readBody p snap s = setPort p x u ∧ CommandEffect .read s u := by
  by_cases hq : s.inq = []
  · obtain ⟨x, he⟩ := readBody_empty p snap hq
    exact ⟨x, _, he, .kept⟩
  · obtain ⟨x, -, he | ⟨hlive, pkt, rest, hcons, he⟩⟩ := readBody_cases p snap hq
    · exact ⟨x, _, he, .kept⟩
    · exact ⟨x, _, he, .popped pkt rest rfl hlive hcons⟩

/-- A command's body writes its own port's record and has the command's effect on the block. -/
theorem runCommand_effect (c : Command) (p : Nat) (snap : Operands) (s : State) :
    ∃ x u, runCommand c p snap s = setPort p x u ∧ CommandEffect c s u := by
  cases c with
  | init => exact initBody_effect p snap s
  | enable => exact lifecycleBody_effect (.inl rfl) p snap s
  | send => exact sendBody_effect p snap s
  | read => exact readBody_effect p snap s
  | reset => exact lifecycleBody_effect (.inr (.inl rfl)) p snap s
  | close => exact lifecycleBody_effect (.inr (.inr rfl)) p snap s
  | encode =>
    obtain ⟨x, -, he⟩ := encodeBody_cases p snap s
    exact ⟨x, s, he, .kept⟩
  | decode =>
    obtain ⟨x, -, he⟩ := decodeBody_cases p snap s
    exact ⟨x, s, he, .kept⟩

theorem issueCommand_effect (c : Command) (p : Nat) (s : State) :
    ∃ x u, issueCommand p c (runCommand c p) s = setPort p x u ∧ CommandEffect c s u := by
  rcases issueCommand_cases p c (runCommand c p) s with he | ⟨-, -, -, he⟩ | ⟨-, -, he⟩
  · exact ⟨portOf s p, s, by rw [he, setPort_portOf], .kept⟩
  · exact ⟨_, s, he, .kept⟩
  · rw [he]
    exact runCommand_effect c p _ s

theorem exec_instr_effect {c : Command} {p : Nat} {s t : State}
    (h : exec (c.instr p) s = .next t) : ∃ x u, t = setPort p x u ∧ CommandEffect c s u := by
  rw [exec_instr] at h
  rw [(onPort_next h).2]
  exact issueCommand_effect c p s

theorem portTurn_effect (p : Nat) (s : State) :
    portTurn p s = s ∨
    ∃ pc x u, (portOf s p).pend = some pc ∧ portTurn p s = setPort p x u ∧
      CommandEffect pc.op s u := by
  rcases portTurn_cases p s with he | ⟨pc, hpend, -, he⟩
  · exact .inl he
  · obtain ⟨x, u, hrun, heff⟩ := runCommand_effect pc.op p pc.snap (clearPending p s)
    obtain ⟨u', heff', rfl⟩ := heff.of_setPort
    exact .inr ⟨pc, x, u', hpend, by rw [he, hrun, setPort_setPort], heff'⟩

/-- Settles O26: a command's effect writes one port's record. -/
theorem otherPortsAreUntouched : Obligations.OtherPortsAreUntouched := by
  intro s t p q c hq h
  rcases h with h | rfl
  · obtain ⟨x, u, rfl, heff⟩ := exec_instr_effect h
    rw [← heff.ports]
    exact setPort_other x u hq
  · rcases portTurn_effect p s with he | ⟨pc, x, u, -, he, heff⟩
    · rw [he]
      exact ⟨rfl, rfl⟩
    · rw [he, ← heff.ports]
      exact setPort_other x u hq

/-! ### What the engine can do -/

/-- What one step of the engine can make of the block. -/
inductive EngineEffect (s : State) : State → Prop where
  /-- S0 holds (R8, R92). -/
  | held : EngineEffect s s
  /-- S0 starts a run (R92). -/
  | started (hk : s.engStep = 0#4) (hrun : runMayStart s = true) : EngineEffect s (startRun s)
  /-- A step of a run that moves no packet of the FIFOs. -/
  | ran (k : BitVec 4) (f : BitVec 3) (w : Bool) (n : Stats) (r : List RadioRequest)
      (e : List OutEvent) (a : List Answer) (d : Nat) (hk : s.engStep ≠ 0#4) :
      EngineEffect s
        { s with engStep := k, flags := f, woke := w, stats := n, rtrace := r, etrace := e
                 answers := a, draws := d }
  /-- S5 ends the run at a size past MAXPAY (R97). -/
  | faulted (r : List RadioRequest) (a : List Answer) (d : Nat) (hk : s.engStep = 5#4) :
      EngineEffect s (faultRun { s with rtrace := r, answers := a, draws := d })
  /-- S5 queues the radio's packet (R97). -/
  | queued (pkt : Packet) (w : Bool) (n : Stats) (r : List RadioRequest) (a : List Answer) (d : Nat)
      (hk : s.engStep = 5#4) (hroom : s.inq.length < s.params.qcap) :
      EngineEffect s
        { s with engStep := 4#4, woke := w, stats := n, rtrace := r, answers := a, draws := d
                 inq := s.inq ++ [pkt] }
  /-- S9 sends OUTQ's head (R101). -/
  | sent (pkt : Packet) (rest : List Packet) (r : List RadioRequest) (hk : s.engStep = 9#4)
      (hq : s.outq = pkt :: rest) :
      EngineEffect s { s with engStep := 10#4, rtrace := r, outq := rest }

theorem execS0Idle_effect {s t : State} (hk : s.engStep = 0#4) (h : execS0Idle s = .next t) :
    EngineEffect s t := by
  rw [execS0Idle, atStep_at hk] at h
  split at h <;> cases h
  · exact .started hk ‹_›
  · exact .held

theorem execS1Standby_effect {s t : State} (hk : s.engStep = 1#4) (h : execS1Standby s = .next t) :
    EngineEffect s t := by
  rw [execS1Standby, atStep_at hk] at h
  cases h
  exact .ran _ _ _ _ _ _ _ _ (by simp [hk])

theorem execS2Clear_effect {s t : State} (hk : s.engStep = 2#4) (h : execS2Clear s = .next t) :
    EngineEffect s t := by
  obtain ⟨f, a, d, he⟩ :
      ∃ v a d, askFlags s = (v, { logRadio .clearStatus s with answers := a, draws := d }) :=
    draw_eq flagsKind radioFlags _
  rw [execS2Clear, atStep_at hk, he] at h
  cases h
  exact .ran _ _ _ _ _ _ _ _ (by simp [hk])

theorem execS3Listen_effect {s t : State} (hk : s.engStep = 3#4) (h : execS3Listen s = .next t) :
    EngineEffect s t := by
  rw [execS3Listen, atStep_at hk] at h
  cases h
  exact .ran _ _ _ _ _ _ _ _ (by simp [hk])

theorem execS4Poll_effect {s t : State} (hk : s.engStep = 4#4) (h : execS4Poll s = .next t) :
    EngineEffect s t := by
  obtain ⟨n, a, d, he⟩ :
      ∃ v a d, askCount s = (v, { logRadio .rxPending s with answers := a, draws := d }) :=
    draw_eq countKind radioCount _
  rw [execS4Poll, atStep_at hk, he] at h
  cases h
  exact .ran _ _ _ _ _ _ _ _ (by simp [hk])

theorem execS5Read_effect {s t : State} (hk : s.engStep = 5#4) (h : execS5Read s = .next t) :
    EngineEffect s t := by
  obtain ⟨⟨n, b⟩, a, d, he⟩ :
      ∃ v a d, askPacket s = (v, { logRadio .read s with answers := a, draws := d }) :=
    draw_eq packetKind radioPacket _
  rw [execS5Read, atStep_at hk, he] at h
  cases h
  unfold takePacket
  split
  · exact .faulted _ a d hk
  split
  · rename_i u hu
    obtain ⟨hroom, rfl⟩ := pushIn_some hu
    exact .queued _ _ _ _ a d hk hroom
  · exact .ran _ _ _ _ _ _ _ _ (by simp [hk])

theorem execS6MaxRt_effect {s t : State} (hk : s.engStep = 6#4) (h : execS6MaxRt s = .next t) :
    EngineEffect s t := by
  rw [execS6MaxRt, atStep_at hk] at h
  cases h
  split <;> exact .ran _ _ _ _ _ _ _ _ (by simp [hk])

theorem execS7TxDs_effect {s t : State} (hk : s.engStep = 7#4) (h : execS7TxDs s = .next t) :
    EngineEffect s t := by
  rw [execS7TxDs, atStep_at hk] at h
  cases h
  split <;> exact .ran _ _ _ _ _ _ _ _ (by simp [hk])

theorem execS8Chan_effect {s t : State} (hk : s.engStep = 8#4) (h : execS8Chan s = .next t) :
    EngineEffect s t := by
  obtain ⟨v, a, d, he⟩ :
      ∃ v a d, askChannel s = (v, { logRadio .channelAvailable s with answers := a, draws := d }) :=
    draw_eq availableKind radioAvailable _
  rw [execS8Chan, atStep_at hk, he] at h
  cases h
  unfold senseChannel
  repeat' split
  all_goals exact .ran _ _ _ _ _ _ _ _ (by simp [hk])

theorem execS9Write_effect {s t : State} (hk : s.engStep = 9#4) (h : execS9Write s = .next t) :
    EngineEffect s t := by
  rw [execS9Write, atStep_at hk] at h
  split at h
  · rename_i pkt u hpop
    obtain ⟨hq, hu⟩ := popOut_some hpop
    rw [hu] at h
    cases h
    exact .sent pkt u.outq _ hk hq
  · cases h

theorem execS10Yield_effect {s t : State} (hk : s.engStep = 10#4) (h : execS10Yield s = .next t) :
    EngineEffect s t := by
  rw [execS10Yield, atStep_at hk] at h
  cases h
  split <;> exact .ran _ _ _ _ _ _ _ _ (by simp [hk])

theorem engineTurn_effect {s t : State} (h : engineTurn s = .next t) : EngineEffect s t := by
  obtain ⟨i, hi, he⟩ := engineTurn_next h
  cases i with
  | init | enable | send | read | reset | close | encode | decode | pktStd | pktExt => cases hi
  | s0Idle => exact execS0Idle_effect (Encoded.position.inj hi).symm he
  | s1Standby => exact execS1Standby_effect (Encoded.position.inj hi).symm he
  | s2Clear => exact execS2Clear_effect (Encoded.position.inj hi).symm he
  | s3Listen => exact execS3Listen_effect (Encoded.position.inj hi).symm he
  | s4Poll => exact execS4Poll_effect (Encoded.position.inj hi).symm he
  | s5Read => exact execS5Read_effect (Encoded.position.inj hi).symm he
  | s6MaxRt => exact execS6MaxRt_effect (Encoded.position.inj hi).symm he
  | s7TxDs => exact execS7TxDs_effect (Encoded.position.inj hi).symm he
  | s8Chan => exact execS8Chan_effect (Encoded.position.inj hi).symm he
  | s9Write => exact execS9Write_effect (Encoded.position.inj hi).symm he
  | s10Yield => exact execS10Yield_effect (Encoded.position.inj hi).symm he

/-- The engine keeps what is not its own (R129). -/
theorem EngineEffect.frame {s t : State} (h : EngineEffect s t) :
    t.ports = s.ports ∧ t.life = s.life ∧ t.cfg = s.cfg ∧ t.params = s.params ∧ t.bus = s.bus := by
  cases h <;> exact ⟨rfl, rfl, rfl, rfl, rfl⟩

/-- An idle engine that may start no run holds. -/
theorem EngineEffect.of_idle {s t : State} (h : EngineEffect s t) (hk : s.engStep = 0#4)
    (hrun : runMayStart s = false) : t = s := by
  cases h with
  | held => rfl
  | started _ hr => simp [hrun] at hr
  | ran _ _ _ _ _ _ _ _ hne => exact absurd hk hne
  | faulted _ _ _ h5 | queued _ _ _ _ _ _ h5 | sent _ _ _ h5 => simp [hk] at h5

/-- Settles O36: each effect of the engine is a record update that names none of these fields. -/
theorem engineTouchesNoPort : Obligations.EngineTouchesNoPort :=
  fun _ _ h => (engineTurn_effect h).frame

/-! ### What a step can do -/

/-- What one step can make of the block: `l` and `d` are the environment's own fields once the input
is taken. -/
inductive StepEffect (s : State) : State → Prop where
  /-- A bus access that runs no command, or the settling of a radio answer. -/
  | quiet (x : List Port) (c : RadioConfig) (b : BusResponse) (l : List Input) (a : List Answer)
      (d : Nat) :
      StepEffect s { s with ports := x, cfg := c, bus := b, inputs := l, answers := a, draws := d }
  /-- `irq` (R89). -/
  | irq (l : List Input) (d : Nat) : StepEffect s (raiseIrq { s with inputs := l, draws := d })
  /-- RST (R136). -/
  | rst (l : List Input) (d : Nat) (hi : (takeInput s).1 = .rst) :
      StepEffect s (blockReset { s with inputs := l, draws := d })
  /-- A step of the engine. -/
  | engine (l : List Input) (d : Nat) {t : State} (hi : (takeInput s).1 = .engine)
      (h : EngineEffect { s with inputs := l, draws := d } t) : StepEffect s t
  /-- A command, issued or run pending, on port `p`. -/
  | command (l : List Input) (d : Nat) (b : BusResponse) (c : Command) (p : Nat) (x : Port)
      {u : State} (hc : takesCommand s c)
      (h : CommandEffect c { s with inputs := l, draws := d, bus := b } u) :
      StepEffect s (setPort p x u)

theorem illegalCommand_ports (p : Nat) (s : State) :
    ∃ x, illegalCommand p s = { s with ports := x } := by
  unfold illegalCommand
  split
  · exact ⟨s.ports, rfl⟩
  · exact ⟨_, rfl⟩

theorem step_effect {s t : State} (h : step s = .next t) : StepEffect s t := by
  obtain ⟨l, d, s', -, rfl, hc⟩ := step_next h
  rcases hc with ⟨r, -, rfl⟩ | ⟨_, _, v, off, -, rfl⟩ | ⟨_, _, v, p, off, -, -, rfl⟩ |
    ⟨v, p, -, -, -, rfl⟩ | ⟨v, p, c, hi, hp, hw, he⟩ | ⟨-, rfl⟩ | ⟨hi, rfl⟩ | ⟨hi, he⟩ |
    ⟨p, hi, rfl⟩ | ⟨a, -, rfl⟩
  · exact .quiet _ _ _ _ _ _
  · exact .quiet _ _ _ _ _ _
  · exact .quiet _ _ _ _ _ _
  · obtain ⟨x, hx⟩ := illegalCommand_ports p { s with inputs := l, draws := d, bus := .done }
    rw [hx]
    exact .quiet _ _ _ _ _ _
  · obtain ⟨x, u, rfl, heff⟩ := exec_instr_effect he
    exact .command l d _ c p x (takesCommand_write hp hi hw) heff
  · exact .irq l d
  · exact .rst l d hi
  · exact .engine l d hi (engineTurn_effect he)
  · rcases portTurn_effect p { s with inputs := l, draws := d } with
      hheld | ⟨pc, x, u, hpend, he, heff⟩
    · rw [hheld]
      exact .quiet _ _ _ _ _ _
    · rw [he]
      exact .command l d s.bus pc.op p x (takesCommand_port hi hpend) heff
  · exact .quiet _ _ _ _ _ _

/-- `irq` writes nothing but EVT_PEND, and that only in ENABLED (R89). -/
theorem raiseIrq_eq (s : State) :
    raiseIrq s = { s with evtPend := s.evtPend || decide (s.life = .enabled) } := by
  unfold raiseIrq
  split <;> simp [*]

/-! ### FIFO discipline -/

/-- OUTQ's producer is SEND, its consumer S9; INIT and RST empty it. -/
theorem outq_discipline {s t : State} (h : StepEffect s t) :
    t.outq = s.outq ∨
      ((∃ p, t.outq = s.outq ++ [p]) ∧ s.outq.length < s.params.qcap ∧ takesCommand s .send) ∨
      ((∃ p, s.outq = p :: t.outq) ∧ (takeInput s).1 = .engine ∧ s.engStep = 9#4) ∨
      (t.outq = [] ∧ ((takeInput s).1 = .rst ∨
        (takesCommand s .init ∧ s.life = .off ∧ t.life = .ready))) := by
  cases h with
  | quiet => exact .inl rfl
  | irq => exact .inl (by rw [raiseIrq_eq])
  | rst _ _ hi => exact .inr (.inr (.inr ⟨rfl, .inl hi⟩))
  | engine _ _ hi heff =>
    cases heff with
    | held | started | ran | faulted | queued => exact .inl rfl
    | sent pkt rest _ hk hq => exact .inr (.inr (.inl ⟨⟨pkt, hq⟩, hi, hk⟩))
  | command _ _ _ c _ _ hc heff =>
    cases heff with
    | kept | escalated | moved | popped => exact .inl rfl
    | opened _ _ _ hinit hoff =>
      exact .inr (.inr (.inr ⟨rfl, .inr ⟨hinit ▸ hc, hoff, rfl⟩⟩))
    | queued pkt _ hsend _ hroom => exact .inr (.inl ⟨⟨pkt, rfl⟩, hroom, hsend ▸ hc⟩)

/-- INQ's producer is S5, its consumer READ; INIT and RST empty it. -/
theorem inq_discipline {s t : State} (h : StepEffect s t) :
    t.inq = s.inq ∨
      ((∃ p, t.inq = s.inq ++ [p]) ∧ s.inq.length < s.params.qcap ∧
        (takeInput s).1 = .engine ∧ s.engStep = 5#4) ∨
      ((∃ p, s.inq = p :: t.inq) ∧ takesCommand s .read) ∨
      (t.inq = [] ∧ ((takeInput s).1 = .rst ∨
        (takesCommand s .init ∧ s.life = .off ∧ t.life = .ready))) := by
  cases h with
  | quiet => exact .inl rfl
  | irq => exact .inl (by rw [raiseIrq_eq])
  | rst _ _ hi => exact .inr (.inr (.inr ⟨rfl, .inl hi⟩))
  | engine _ _ hi heff =>
    cases heff with
    | held | started | ran | faulted | sent => exact .inl rfl
    | queued pkt _ _ _ _ _ hk hroom => exact .inr (.inl ⟨⟨pkt, rfl⟩, hroom, hi, hk⟩)
  | command _ _ _ c _ _ hc heff =>
    cases heff with
    | kept | escalated | moved | queued => exact .inl rfl
    | opened _ _ _ hinit hoff =>
      exact .inr (.inr (.inr ⟨rfl, .inr ⟨hinit ▸ hc, hoff, rfl⟩⟩))
    | popped pkt _ hread _ hq => exact .inr (.inr (.inl ⟨⟨pkt, hq⟩, hread ▸ hc⟩))

/-- Settles O41, one FIFO at a time. -/
theorem everyStepKeepsFifoDiscipline : Obligations.EveryStepKeepsFifoDiscipline :=
  fun _ _ h => ⟨outq_discipline (step_effect h), inq_discipline (step_effect h)⟩

/-! ### LIFE -/

/-- A step that changes LIFE is RST or takes a lifecycle command (R18). -/
theorem StepEffect.life_changes {s t : State} (h : StepEffect s t) (hne : t.life ≠ s.life) :
    (takeInput s).1 = .rst ∨ ∃ c, takesCommand s c ∧ isLifecycle c = true := by
  cases h with
  | quiet => exact absurd rfl hne
  | irq => exact absurd (by rw [raiseIrq_eq]) hne
  | rst _ _ hi => exact .inl hi
  | engine _ _ _ heff =>
    obtain ⟨-, hlife, -⟩ := heff.frame
    exact absurd hlife hne
  | command _ _ _ c _ _ hc heff =>
    refine .inr ⟨c, hc, ?_⟩
    by_contra hl
    exact hne (heff.life_eq (by simpa using hl))

/-- Settles O44: the taking of a lifecycle command, written out. -/
theorem onlyLifecycleCommandsChangeLife : Obligations.OnlyLifecycleCommandsChangeLife := by
  intro s t hnr h hne
  rcases (step_effect h).life_changes hne with
    hr | ⟨c, ⟨p, w, -, hi, hw⟩ | ⟨p, x, pc, hi, hx, hpc, rfl⟩, hl⟩
  · exact absurd hr hnr
  · exact .inl ⟨p, w, c, hi, by rw [decode, hw], hl⟩
  · exact .inr ⟨p, x, pc, hi, hx, hpc, hl⟩

/-! ### FATAL and ENG_FAULT -/

theorem runMayStart_fatal {s : State} (h : s.life = .fatal) : runMayStart s = false := by
  simp [runMayStart, h]

theorem runMayStart_engFault {s : State} (h : s.engFault = true) : runMayStart s = false := by
  simp [runMayStart, h]

/-- Settles O45: in FATAL the engine is idle and starts no run, `irq` latches nothing and a command
writes its port only. -/
theorem fatalLastsUntilRst : Obligations.FatalLastsUntilRst := by
  intro s t hs hf hnr h
  have hidle : s.engStep = 0#4 := (((sound_iff s).mp hs).1.idle (by simp [hf])).1
  cases step_effect h with
  | quiet => exact ⟨hf, rfl, rfl, rfl, rfl, rfl, rfl, rfl⟩
  | irq => simp [raiseIrq_eq, hf]
  | rst _ _ hi => exact absurd hi hnr
  | engine _ _ _ heff =>
    rw [heff.of_idle hidle (runMayStart_fatal hf)]
    exact ⟨hf, rfl, rfl, rfl, rfl, rfl, rfl, rfl⟩
  | command _ _ _ _ _ _ _ heff =>
    rw [heff.of_fatal hf]
    exact ⟨hf, rfl, rfl, rfl, rfl, rfl, rfl, rfl⟩

theorem EngineEffect.engFault {s t : State} (h : EngineEffect s t) (hf : s.engFault = true) :
    t.engFault = true := by
  cases h with
  | held | started | ran | queued | sent => exact hf
  | faulted => rfl

/-- Settles O46: no agent clears ENG_FAULT, and only the engine moves ENG_STEP. -/
theorem engineFaultLastsUntilRst : Obligations.EngineFaultLastsUntilRst := by
  intro s t hf hnr h
  cases step_effect h with
  | quiet => exact ⟨hf, id⟩
  | irq => rw [raiseIrq_eq]; exact ⟨hf, id⟩
  | rst _ _ hi => exact absurd hi hnr
  | engine _ _ _ heff =>
    refine ⟨heff.engFault hf, fun hidle => ?_⟩
    rw [heff.of_idle hidle (runMayStart_engFault hf)]
    exact hidle
  | command _ _ _ _ _ _ _ heff =>
    obtain ⟨hstep, hfault⟩ := heff.engine
    exact ⟨hfault.trans hf, hstep.trans⟩

end Sys2Proof.Machine
end

section
/-! The state family's proofs, the register window: what a read and a write of each register do, the
fields of STATUS, a command that waits, the model's stops and the state after reset. -/

namespace Sys2Proof.Machine

open Sys2Proof Config

/-! ### Bit vectors put together from fields -/

theorem toNat_append_eq {m n : Nat} (x : BitVec m) (y : BitVec n) :
    (x ++ y).toNat = x.toNat * 2 ^ n + y.toNat := by
  rw [BitVec.toNat_append, ← Nat.shiftLeft_add_eq_or_of_lt y.isLt, Nat.shiftLeft_eq]

/-- A field of `n` bits written from a word reads back as the word's low `n` bits (R33). -/
theorem setWidth_setWidth_eq_and (v : Word) {n : Nat} (hn : n ≤ 32) :
    (v.setWidth n).setWidth 32 = v &&& BitVec.ofNat 32 (2 ^ n - 1) := by
  have hpow : 2 ^ n ≤ 2 ^ 32 := Nat.pow_le_pow_right (by decide) hn
  have hlt : v.toNat % 2 ^ n < 2 ^ n := Nat.mod_lt _ (by positivity)
  apply BitVec.eq_of_toNat_eq
  rw [BitVec.toNat_and, BitVec.toNat_ofNat, Nat.mod_eq_of_lt (by omega),
    Nat.and_two_pow_sub_one_eq_mod, BitVec.toNat_setWidth, BitVec.toNat_setWidth,
    Nat.mod_eq_of_lt (by omega)]

/-! ### Byte lanes -/

theorem lanes_of_append (b0 b1 b2 b3 : Byte) :
    (b3 ++ b2 ++ b1 ++ b0).extractLsb' 0 8 = b0 ∧ (b3 ++ b2 ++ b1 ++ b0).extractLsb' 8 8 = b1 ∧
      (b3 ++ b2 ++ b1 ++ b0).extractLsb' 16 8 = b2 ∧
      (b3 ++ b2 ++ b1 ++ b0).extractLsb' 24 8 = b3 := by
  simp [-Nat.reduceAdd, BitVec.extractLsb'_append_eq_of_le, BitVec.extractLsb'_append_eq_right]

/-- Byte `j` of a register that shows bytes `4 * k` to `4 * k + 3` (R36). -/
theorem laneByte_readLanes {n : Nat} (v : Vector Byte n) (k : Nat) {j : Nat} (hj : j < 4) :
    laneByte j (readLanes v k) = v[4 * k + j]?.getD 0 := by
  obtain ⟨h0, h1, h2, h3⟩ := lanes_of_append (v[4 * k]?.getD 0) (v[4 * k + 1]?.getD 0)
    (v[4 * k + 2]?.getD 0) (v[4 * k + 3]?.getD 0)
  interval_cases j
  · exact h0
  · exact h1
  · exact h2
  · exact h3

/-- Byte `i` of a byte sequence stands in lane `i % 4` of the register of `i / 4` (R36). -/
theorem readLanes_extract {n : Nat} (v : Vector Byte n) (i : Fin n) :
    (readLanes v (i.val / 4)).extractLsb' (8 * (i.val % 4)) 8 = v[i] := by
  have hlane := laneByte_readLanes v (i.val / 4) (j := i.val % 4) (by omega)
  rw [Nat.div_add_mod] at hlane
  simpa [laneByte] using hlane

theorem getD_writeLanes {n : Nat} (v : Vector Byte n) (k : Nat) (w : Word) {i : Nat} (hi : i < n) :
    (writeLanes v k w)[i]?.getD 0 = if i / 4 = k then laneByte (i % 4) w else v[i] := by
  simp [writeLanes, hi]

theorem laneWord_laneByte (w : Word) :
    laneWord (laneByte 0 w) (laneByte 1 w) (laneByte 2 w) (laneByte 3 w) = w := by
  have h : w.extractLsb' 24 8 ++ w.extractLsb' 16 8 ++ w.extractLsb' 8 8 ++ w.extractLsb' 0 8
      = w.extractLsb' 0 32 := by
    repeat rw [BitVec.extractLsb'_append_extractLsb'_eq_extractLsb' (by rfl)]
  exact h.trans BitVec.extractLsb'_eq_self

theorem readLanes_writeLanes_same {n : Nat} (v : Vector Byte n) {k : Nat} (w : Word)
    (hk : 4 * k + 3 < n) : readLanes (writeLanes v k w) k = w := by
  have hlane : ∀ j, j < 4 → (writeLanes v k w)[4 * k + j]?.getD 0 = laneByte j w := by
    intro j hj
    rw [getD_writeLanes v k w (by omega), if_pos (by omega), Nat.mul_add_mod, Nat.mod_eq_of_lt hj]
  rw [readLanes, hlane 1 (by decide), hlane 2 (by decide), hlane 3 (by decide)]
  exact (congrArg (laneWord · _ _ _) (hlane 0 (by decide))).trans (laneWord_laneByte w)

theorem readLanes_writeLanes_ne {n : Nat} (v : Vector Byte n) {k k' : Nat} (w : Word)
    (hk : k' ≠ k) : readLanes (writeLanes v k w) k' = readLanes v k' := by
  have hlane : ∀ j, j < 4 →
      (writeLanes v k w)[4 * k' + j]?.getD 0 = v[4 * k' + j]?.getD 0 := by
    intro j hj
    by_cases hi : 4 * k' + j < n
    · rw [getD_writeLanes v k w hi, if_neg (by omega)]
      simp [hi]
    · simp [hi]
  rw [readLanes, hlane 1 (by decide), hlane 2 (by decide), hlane 3 (by decide)]
  exact congrArg (laneWord · _ _ _) (hlane 0 (by decide))

/-! ### A port's operand registers -/

theorem readOperand_pktBuf (r : Operands) {k : Nat} (hk : k < 8) :
    readOperand r (0x20 + 4 * k) = readLanes r.pktBuf k := by
  have hquot : (0x20 + 4 * k - 0x20) / 4 = k := by omega
  unfold readOperand
  repeat rw [if_neg (by omega)]
  rw [if_pos (by omega), hquot]

theorem writeOperand_pktBuf (r : Operands) {k : Nat} (v : Word) (hk : k < 8) :
    writeOperand r (0x20 + 4 * k) v = { r with pktBuf := writeLanes r.pktBuf k v } := by
  have hquot : (0x20 + 4 * k - 0x20) / 4 = k := by omega
  unfold writeOperand
  repeat rw [if_neg (by omega)]
  rw [if_pos (by omega), hquot]

/-- RESULT's offset and what lies past PKT_BUF are no operand registers and take no write. -/
theorem writeOperand_unlisted (r : Operands) {off : Nat} (v : Word) (h : off = 0x04 ∨ 0x40 ≤ off) :
    writeOperand r off v = r := by
  unfold writeOperand
  repeat rw [if_neg (by omega)]

theorem readOperand_unlisted (r : Operands) {off : Nat} (h : off = 0 ∨ 0x40 ≤ off) :
    readOperand r off = 0 := by
  unfold readOperand
  repeat rw [if_neg (by omega)]

/-- The aligned offsets of the operand registers (R14). -/
theorem operandOffset_cases {off : Nat} (ha : off % 4 = 0) (hlo : 0x08 ≤ off) (hhi : off < 0x40) :
    off = 0x08 ∨ off = 0x0C ∨ off = 0x10 ∨ off = 0x14 ∨ off = 0x18 ∨ off = 0x1C ∨
      ∃ k, k < 8 ∧ off = 0x20 + 4 * k := by
  by_cases h : 0x20 ≤ off
  · iterate 6 right
    exact ⟨(off - 0x20) / 4, by omega, by omega⟩
  · omega

theorem readOperand_writeOperand_same (r : Operands) {off : Nat} (v : Word) (ha : off % 4 = 0)
    (hlo : 0x08 ≤ off) (hhi : off < 0x40) :
    readOperand (writeOperand r off v) off =
      if off = 0x0C then v &&& 0xF#32 else if off = 0x1C then v &&& 0x3F#32 else v := by
  rcases operandOffset_cases ha hlo hhi with rfl | rfl | rfl | rfl | rfl | rfl | ⟨k, hk, rfl⟩
  · rfl
  · exact setWidth_setWidth_eq_and v (n := 4) (by decide)
  · exact readLanes_writeLanes_same r.frameData (k := 0) v (by decide)
  · exact readLanes_writeLanes_same r.frameData (k := 1) v (by decide)
  · rfl
  · exact setWidth_setWidth_eq_and v (n := 6) (by decide)
  · rw [writeOperand_pktBuf r v hk, readOperand_pktBuf _ hk, if_neg (by omega), if_neg (by omega)]
    exact readLanes_writeLanes_same r.pktBuf v (by omega)

/-- FRAME_DATA's two registers take each its own four bytes, and no other register reads them. -/
theorem readOperand_frameData_ne (r : Operands) {off : Nat} {k : Nat} (v : Word)
    (h : off ≠ 0x10 + 4 * k) :
    readOperand { r with frameData := writeLanes r.frameData k v } off = readOperand r off := by
  by_cases h0 : off = 0x10
  · subst h0
    exact readLanes_writeLanes_ne r.frameData v (by omega)
  by_cases h1 : off = 0x14
  · subst h1
    exact readLanes_writeLanes_ne r.frameData v (by omega)
  simp only [readOperand, if_neg h0, if_neg h1]

theorem readOperand_pktBuf_ne (r : Operands) {off : Nat} {k : Nat} (v : Word) (ha : off % 4 = 0)
    (h : off ≠ 0x20 + 4 * k) :
    readOperand { r with pktBuf := writeLanes r.pktBuf k v } off = readOperand r off := by
  by_cases hr : 0x20 ≤ off ∧ off < 0x40
  · obtain ⟨k', hk', rfl⟩ : ∃ k', k' < 8 ∧ off = 0x20 + 4 * k' :=
      ⟨(off - 0x20) / 4, by omega, by omega⟩
    rw [readOperand_pktBuf _ hk', readOperand_pktBuf _ hk']
    exact readLanes_writeLanes_ne r.pktBuf v (by omega)
  · simp only [readOperand, if_neg hr]

theorem readOperand_writeOperand_ne (r : Operands) {off off' : Nat} (v : Word) (ha : off % 4 = 0)
    (hlo : 0x08 ≤ off) (hhi : off < 0x40) (ha' : off' % 4 = 0) (hne : off' ≠ off) :
    readOperand (writeOperand r off v) off' = readOperand r off' := by
  rcases operandOffset_cases ha hlo hhi with rfl | rfl | rfl | rfl | rfl | rfl | ⟨k, hk, rfl⟩
  · simp [readOperand, writeOperand, hne]
  · simp [readOperand, writeOperand, hne]
  · exact readOperand_frameData_ne r (k := 0) v hne
  · exact readOperand_frameData_ne r (k := 1) v hne
  · simp [readOperand, writeOperand, hne]
  · simp [readOperand, writeOperand, hne]
  · rw [writeOperand_pktBuf r v hk]
    exact readOperand_pktBuf_ne r v ha' hne

/-! ### A port's window -/

theorem readPort_eq {s : State} {p : Nat} {x : Port} (h : s.ports[p]? = some x) (off : Nat) :
    readPort s p off = if off = 0x04 then x.result.setWidth 32 else readOperand x.regs off := by
  rw [readPort, portOf_of_getElem? h]

theorem readPort_writePort_same {s : State} {p off : Nat} (v : Word) (hp : p < s.ports.length)
    (hlo : 0x08 ≤ off) :
    readPort (writePort p off v s) p off =
      readOperand (writeOperand (portOf s p).regs off v) off := by
  rw [readPort, writePort, portOf_setPort _ hp, if_neg (by omega)]

theorem readPort_writePort_ne {s : State} {p q off off' : Nat} (v : Word) (hp : p < s.ports.length)
    (ha : off % 4 = 0) (hlo : 0x08 ≤ off) (hhi : off < 0x40) (ha' : off' % 4 = 0)
    (hne : (q, off') ≠ (p, off)) :
    readPort (writePort p off v s) q off' = readPort s q off' := by
  by_cases hq : q = p
  · subst hq
    rw [readPort, readPort, writePort, portOf_setPort _ hp,
      readOperand_writeOperand_ne _ v ha hlo hhi ha' fun he => hne (by rw [he])]
  · rw [readPort, readPort, writePort, portOf_setPort_ne _ hq]

/-- A write to an operand register keeps what is pending on every port (R139). -/
theorem writePort_pend (p off : Nat) (v : Word) (s : State) :
    (writePort p off v s).ports.map (·.pend) = s.ports.map (·.pend) := by
  have hsame : (setPort p (portOf s p) s).ports.map (·.pend) = s.ports.map (·.pend) := by
    rw [setPort_portOf]
  rw [← hsame]
  simp [writePort, List.map_set]

theorem writePort_unlisted (p : Nat) {off : Nat} (v : Word) (s : State)
    (h : off = 0x04 ∨ 0x40 ≤ off) : writePort p off v s = s := by
  rw [writePort, writeOperand_unlisted _ v h]
  exact setPort_portOf p s

/-! ### The configuration registers -/

/-- Every offset of the global window but the four configuration registers takes no write (R22). -/
theorem writeConfig_readOnly (c : RadioConfig) {off : Nat} (v : Word)
    (h : off ≠ 0x04 ∧ off ≠ 0x08 ∧ off ≠ 0x0C ∧ off ≠ 0x10) : writeConfig c off v = c := by
  obtain ⟨h4, h8, hc, h10⟩ := h
  simp [writeConfig, h4, h8, hc, h10]

theorem writeConfig_addrLo (c : RadioConfig) (v : Word) :
    writeConfig c 0x04 v =
      { c with addr := BitVec.ofNat 40 (c.addr.toNat / 2 ^ 32 * 2 ^ 32 + v.toNat) } := by
  have haddr : c.addr.extractLsb' 32 8 ++ v =
      BitVec.ofNat 40 (c.addr.toNat / 2 ^ 32 * 2 ^ 32 + v.toNat) := by
    apply BitVec.eq_of_toNat_eq
    refine (toNat_append_eq (c.addr.extractLsb' 32 8) v).trans ?_
    rw [BitVec.extractLsb'_toNat, BitVec.toNat_ofNat, Nat.shiftRight_eq_div_pow]
    omega
  exact congrArg (fun a => { c with addr := a }) haddr

theorem writeConfig_addrHi (c : RadioConfig) (v : Word) :
    writeConfig c 0x08 v =
      { c with addr := BitVec.ofNat 40 (v.toNat % 0x100 * 2 ^ 32 + c.addr.toNat % 2 ^ 32) } := by
  have haddr : v.extractLsb' 0 8 ++ c.addr.extractLsb' 0 32 =
      BitVec.ofNat 40 (v.toNat % 0x100 * 2 ^ 32 + c.addr.toNat % 2 ^ 32) := by
    apply BitVec.eq_of_toNat_eq
    refine (toNat_append_eq (v.extractLsb' 0 8) (c.addr.extractLsb' 0 32)).trans ?_
    rw [BitVec.extractLsb'_toNat, BitVec.extractLsb'_toNat, BitVec.toNat_ofNat]
    simp only [Nat.shiftRight_zero]
    omega
  exact congrArg (fun a => { c with addr := a }) haddr

theorem writeConfig_channel (c : RadioConfig) (v : Word) :
    writeConfig c 0x0C v = { c with channel := BitVec.ofNat 8 v.toNat } := rfl

theorem writeConfig_retry (c : RadioConfig) (v : Word) :
    writeConfig c 0x10 v =
      { c with retryCount := BitVec.ofNat 8 v.toNat
               retryDelay := BitVec.ofNat 8 (v.toNat / 0x100) } := by
  have hdelay : v.extractLsb' 8 8 = BitVec.ofNat 8 (v.toNat / 0x100) := by
    rw [BitVec.extractLsb', Nat.shiftRight_eq_div_pow]
  rw [← hdelay]
  rfl

theorem readGlobal_addrLo (s : State) : readGlobal s 0x04 = s.cfg.addr.extractLsb' 0 32 := rfl

theorem readGlobal_addrHi (s : State) :
    readGlobal s 0x08 = (s.cfg.addr.extractLsb' 32 8).setWidth 32 := rfl

theorem readGlobal_channel (s : State) : readGlobal s 0x0C = s.cfg.channel.setWidth 32 := rfl

theorem readGlobal_retry (s : State) :
    readGlobal s 0x10 = 0#16 ++ s.cfg.retryDelay ++ s.cfg.retryCount := rfl

theorem readGlobal_writeConfig_same (s : State) {off : Nat} (v : Word)
    (h : off = 0x04 ∨ off = 0x08 ∨ off = 0x0C ∨ off = 0x10) :
    readGlobal { s with cfg := writeConfig s.cfg off v } off =
      if off = 0x04 then v else if off = 0x10 then v &&& 0xFFFF#32 else v &&& 0xFF#32 := by
  have hlow : (v.extractLsb' 0 8).setWidth 32 = v &&& 0xFF#32 := by
    rw [← BitVec.setWidth_eq_extractLsb' (by decide)]
    exact setWidth_setWidth_eq_and v (n := 8) (by decide)
  rcases h with rfl | rfl | rfl | rfl
  · exact BitVec.extractLsb'_append_eq_right (a := s.cfg.addr.extractLsb' 32 8) (b := v)
  · have hhi : (v.extractLsb' 0 8 ++ s.cfg.addr.extractLsb' 0 32).extractLsb' 32 8 =
        v.extractLsb' 0 8 := BitVec.extractLsb'_append_eq_left
    exact (congrArg (BitVec.setWidth 32) hhi).trans hlow
  · exact hlow
  · refine Eq.trans ?_ (setWidth_setWidth_eq_and v (n := 16) (by decide))
    apply BitVec.eq_of_toNat_eq
    refine (toNat_append_eq (0#16 ++ v.extractLsb' 8 8) (v.extractLsb' 0 8)).trans ?_
    rw [toNat_append_eq, BitVec.extractLsb'_toNat, BitVec.extractLsb'_toNat, BitVec.toNat_setWidth,
      BitVec.toNat_setWidth, Nat.shiftRight_eq_div_pow, Nat.shiftRight_zero, BitVec.toNat_ofNat]
    omega

theorem writeConfig_addrLo_ne (c : RadioConfig) {off : Nat} (v : Word) (h : off ≠ 0x04) :
    (writeConfig c off v).addr.extractLsb' 0 32 = c.addr.extractLsb' 0 32 := by
  have hlo : (v.extractLsb' 0 8 ++ c.addr.extractLsb' 0 32).extractLsb' 0 32 =
      c.addr.extractLsb' 0 32 := BitVec.extractLsb'_append_eq_right
  rw [writeConfig, if_neg h]
  split
  · exact hlo
  · split_ifs <;> rfl

theorem writeConfig_addrHi_ne (c : RadioConfig) {off : Nat} (v : Word) (h : off ≠ 0x08) :
    (writeConfig c off v).addr.extractLsb' 32 8 = c.addr.extractLsb' 32 8 := by
  have hhi : (c.addr.extractLsb' 32 8 ++ v).extractLsb' 32 8 = c.addr.extractLsb' 32 8 :=
    BitVec.extractLsb'_append_eq_left
  rw [writeConfig, if_neg h]
  split
  · exact hhi
  · split_ifs <;> rfl

theorem writeConfig_channel_ne (c : RadioConfig) {off : Nat} (v : Word) (h : off ≠ 0x0C) :
    (writeConfig c off v).channel = c.channel := by
  rw [writeConfig, if_neg h]
  split_ifs <;> rfl

theorem writeConfig_retry_ne (c : RadioConfig) {off : Nat} (v : Word) (h : off ≠ 0x10) :
    (writeConfig c off v).retryCount = c.retryCount ∧
      (writeConfig c off v).retryDelay = c.retryDelay := by
  rw [writeConfig, if_neg h]
  split_ifs <;> exact ⟨rfl, rfl⟩

/-- STATUS, PARAMS and the counters read no configuration register. -/
theorem readGlobal_cfg (s : State) (c : RadioConfig) {off : Nat}
    (h : off ≠ 0x04 ∧ off ≠ 0x08 ∧ off ≠ 0x0C ∧ off ≠ 0x10) :
    readGlobal { s with cfg := c } off = readGlobal s off := by
  obtain ⟨h4, h8, hc, h10⟩ := h
  simp only [readGlobal, if_neg h4, if_neg h8, if_neg hc, if_neg h10]
  rfl

/-- A write to one configuration register leaves every other register as it was. -/
theorem readGlobal_writeConfig_ne (s : State) {off off' : Nat} (v : Word) (hne : off ≠ off') :
    readGlobal { s with cfg := writeConfig s.cfg off v } off' = readGlobal s off' := by
  by_cases hcfg : off' = 0x04 ∨ off' = 0x08 ∨ off' = 0x0C ∨ off' = 0x10
  · rcases hcfg with rfl | rfl | rfl | rfl
    · rw [readGlobal_addrLo, readGlobal_addrLo, writeConfig_addrLo_ne s.cfg v hne]
    · rw [readGlobal_addrHi, readGlobal_addrHi, writeConfig_addrHi_ne s.cfg v hne]
    · rw [readGlobal_channel, readGlobal_channel, writeConfig_channel_ne s.cfg v hne]
    · obtain ⟨hcount, hdelay⟩ := writeConfig_retry_ne s.cfg v hne
      rw [readGlobal_retry, readGlobal_retry, hcount, hdelay]
  · exact readGlobal_cfg s _ (by omega)

/-! ### Bus accesses to the window's registers -/

section Window

variable {s : State} {off : Nat}

theorem admitted_global (hb : s.params.base % 0x1000 = 0) (ha : off % 4 = 0) :
    admitted (s.params.base + off) 4 = true := by
  have haligned : (s.params.base + off) % 4 = 0 := by omega
  simp [admitted, haligned]

theorem admitted_port (hb : s.params.base % 0x1000 = 0) (ha : off % 4 = 0) (p : Nat) :
    admitted (portAddress s p off) 4 = true := by
  have haligned : portAddress s p off % 4 = 0 := by
    unfold portAddress
    omega
  simp [admitted, haligned]

theorem busRead_global (hb : s.params.base % 0x1000 = 0) (ha : off % 4 = 0) (ho : off < 0x100) :
    busRead (s.params.base + off) 4 s = .next { s with bus := .data (readGlobal s off) } := by
  simp only [busRead, busTarget_global ho, admitted_global hb ha, if_true]
  rfl

theorem busRead_port (hb : s.params.base % 0x1000 = 0) (ha : off % 4 = 0) (ho : off < 0x100)
    {p : Nat} (hp : p < s.ports.length) :
    busRead (portAddress s p off) 4 s = .next { s with bus := .data (readPort s p off) } := by
  simp only [busRead, busTarget_port hp ho, admitted_port hb ha, if_true]
  rfl

theorem busWrite_global (hb : s.params.base % 0x1000 = 0) (ha : off % 4 = 0) (ho : off < 0x100)
    (v : Word) :
    busWrite (s.params.base + off) 4 v s =
      .next { s with cfg := writeConfig s.cfg off v, bus := .done } := by
  simp only [busWrite, busTarget_global ho, admitted_global hb ha, if_true]
  rfl

theorem busWrite_port (hb : s.params.base % 0x1000 = 0) (ha : off % 4 = 0) (ho : off < 0x100)
    (h0 : off ≠ 0) {p : Nat} (hp : p < s.ports.length) (v : Word) :
    busWrite (portAddress s p off) 4 v s = .next { writePort p off v s with bus := .done } := by
  simp only [busWrite, busTarget_port hp ho, admitted_port hb ha, if_true, writeTarget, if_neg h0]
  rfl

end Window

/-- Settles O51: the write is `writePort`, which sets one register of one port. -/
theorem operandRegistersReadBack : Obligations.OperandRegistersReadBack := by
  intro s p off v hb hp ha hlo hhi
  refine ⟨writePort p off v s, busWrite_port hb ha (by omega) (by omega) hp v, ⟨_, rfl⟩,
    writePort_pend p off v s, ?_,
    fun _ _ ha' hne => readPort_writePort_ne v hp ha hlo hhi ha' hne⟩
  rw [readPort_writePort_same v hp hlo]
  exact readOperand_writeOperand_same _ v ha hlo hhi

/-- Settles O52: the configuration after the write is `writeConfig`'s. -/
theorem configurationRegistersReadBack : Obligations.ConfigurationRegistersReadBack := by
  intro s off v hb hoff
  refine ⟨writeConfig s.cfg off v, busWrite_global hb (by omega) (by omega) v, ?_, ?_, ?_, ?_,
    readGlobal_writeConfig_same s v hoff, fun _ hne => readGlobal_writeConfig_ne s v hne.symm⟩
  · rintro rfl
    exact writeConfig_addrLo s.cfg v
  · rintro rfl
    exact writeConfig_addrHi s.cfg v
  · rintro rfl
    exact writeConfig_channel s.cfg v
  · rintro rfl
    exact writeConfig_retry s.cfg v

theorem readGlobal_unlisted (s : State) {off : Nat} (h : 0x30 < off ∨ off = 0x18 ∨ off = 0x1C) :
    readGlobal s off = 0 := by
  unfold readGlobal
  repeat rw [if_neg (by omega)]

theorem readPort_unlisted (s : State) (p : Nat) {off : Nat} (h : off = 0 ∨ 0x40 ≤ off) :
    readPort s p off = 0 := by
  rw [readPort, if_neg (by omega), readOperand_unlisted _ h]

/-- Settles O53, window by window. -/
theorem readOnlyAndUnlistedOffsetsIgnoreWrites :
    Obligations.ReadOnlyAndUnlistedOffsetsIgnoreWrites := by
  intro s off v hb ha ho
  refine ⟨fun hcfg => ?_, readGlobal_unlisted s,
    fun p hp => ⟨fun hoff => ?_, readPort_unlisted s p⟩⟩
  · rw [busWrite_global hb ha ho, writeConfig_readOnly s.cfg v hcfg]
  · rw [busWrite_port hb ha ho (by omega) hp, writePort_unlisted p v s hoff]

/-! ### STATUS -/

/-- Where each of ten fields stands in the word they are put together to (R23). -/
theorem statusFields_of_append (inq outq : BitVec 8) (zero : BitVec 3) (woke : BitVec 1)
    (pos : BitVec 4) (flags : BitVec 3) (fault evt run : BitVec 1) (life : BitVec 2) (w)
    (hw : w = inq ++ outq ++ zero ++ woke ++ pos ++ flags ++ fault ++ evt ++ run ++ life) :
    (w.extractLsb' 0 2 = life ∧ w.extractLsb' 2 1 = run ∧ w.extractLsb' 3 1 = evt ∧
      w.extractLsb' 4 1 = fault ∧ w.extractLsb' 5 3 = flags) ∧
    (w.extractLsb' 8 4 = pos ∧ w.extractLsb' 12 1 = woke ∧ w.extractLsb' 13 3 = zero ∧
      w.extractLsb' 16 8 = outq ∧ w.extractLsb' 24 8 = inq) := by
  subst hw
  simp [-Nat.reduceAdd, BitVec.extractLsb'_append_eq_of_le, BitVec.extractLsb'_append_eq_right]

/-- A bit of a field is a bit of the word. -/
theorem getLsbD_of_extractLsb' {w k n : Nat} {x : BitVec w} {f : BitVec n}
    (h : x.extractLsb' k n = f) {i : Nat} (hi : i < n) : x.getLsbD (k + i) = f.getLsbD i := by
  rw [← h, BitVec.getLsbD_extractLsb']
  simp [hi]

theorem toNat_lifeCode (l : Life) :
    (lifeCode l).toNat =
      if l = .off then 0 else if l = .ready then 1 else if l = .enabled then 2 else 3 := by
  cases l <;> rfl

/-- Settles O54: STATUS is its ten fields put together. -/
theorem statusShowsEveryField : Obligations.StatusShowsEveryField := by
  intro s hout hin
  obtain ⟨⟨hlife, hrun, hevt, hfault, hflags⟩, hpos, hwoke, hzero, houtq, hinq⟩ :=
    statusFields_of_append (BitVec.ofNat 8 s.inq.length) (BitVec.ofNat 8 s.outq.length) 0#3
      (BitVec.ofBool s.woke) s.engStep s.flags (BitVec.ofBool s.engFault) (BitVec.ofBool s.evtPend)
      (BitVec.ofBool (busy s)) (lifeCode s.life) (readGlobal s 0) rfl
  refine ⟨?_, ?_, ?_, ?_, getLsbD_of_extractLsb' hflags (i := 0) (by decide),
    getLsbD_of_extractLsb' hflags (i := 1) (by decide),
    getLsbD_of_extractLsb' hflags (i := 2) (by decide), hpos, ?_, hzero, ?_, ?_⟩
  · exact (congrArg BitVec.toNat hlife).trans (toNat_lifeCode s.life)
  · refine (getLsbD_of_extractLsb' hrun (i := 0) (by decide)).trans ?_
    simp [busy, bne, Bool.beq_eq_decide_eq]
  · exact (getLsbD_of_extractLsb' hevt (i := 0) (by decide)).trans (by simp)
  · exact (getLsbD_of_extractLsb' hfault (i := 0) (by decide)).trans (by simp)
  · exact (getLsbD_of_extractLsb' hwoke (i := 0) (by decide)).trans (by simp)
  · refine (congrArg BitVec.toNat houtq).trans ?_
    rw [BitVec.toNat_ofNat]
    omega
  · refine (congrArg BitVec.toNat hinq).trans ?_
    rw [BitVec.toNat_ofNat]
    omega

/-! ### Reads -/

theorem readGlobal_addrHi_eq_ofNat (s : State) :
    readGlobal s 0x08 = BitVec.ofNat 32 (s.cfg.addr.toNat / 2 ^ 32) := by
  apply BitVec.eq_of_toNat_eq
  rw [readGlobal_addrHi, BitVec.toNat_setWidth, BitVec.extractLsb'_toNat, BitVec.toNat_ofNat,
    Nat.shiftRight_eq_div_pow]
  omega

theorem readGlobal_channel_eq_ofNat (s : State) :
    readGlobal s 0x0C = BitVec.ofNat 32 s.cfg.channel.toNat := by
  rw [readGlobal_channel, BitVec.ofNat_toNat]

theorem readGlobal_retry_eq_ofNat (s : State) :
    readGlobal s 0x10 =
      BitVec.ofNat 32 (s.cfg.retryCount.toNat + 0x100 * s.cfg.retryDelay.toNat) := by
  apply BitVec.eq_of_toNat_eq
  refine (toNat_append_eq (0#16 ++ s.cfg.retryDelay) s.cfg.retryCount).trans ?_
  rw [toNat_append_eq, BitVec.toNat_ofNat, BitVec.toNat_ofNat]
  omega

/-- PARAMS within R6's bounds, which keep both parameters in their fields. -/
theorem readGlobal_params_eq_ofNat {s : State} (hq : s.params.qcap ≤ 255)
    (hn : s.ports.length ≤ 15) :
    readGlobal s 0x14 = BitVec.ofNat 32 (s.params.qcap + 0x100 * s.ports.length) := by
  apply BitVec.eq_of_toNat_eq
  refine (toNat_append_eq (0#20 ++ BitVec.ofNat 4 s.ports.length)
    (BitVec.ofNat 8 s.params.qcap)).trans ?_
  rw [toNat_append_eq, BitVec.toNat_ofNat, BitVec.toNat_ofNat, BitVec.toNat_ofNat,
    BitVec.toNat_ofNat]
  omega

/-- FRAME_DATA_LO and FRAME_DATA_HI show the two halves of FRAME_DATA. -/
theorem readOperand_frameData (r : Operands) {k : Nat} (hk : k < 2) :
    readOperand r (0x10 + 4 * k) = readLanes r.frameData k := by
  interval_cases k <;> rfl

/-- Settles O50, register by register. -/
theorem readsAnswerAndChangeNothing : Obligations.ReadsAnswerAndChangeNothing := by
  intro s
  refine ⟨fun off hb ha ho => ⟨busRead_global hb ha ho, fun p hp => busRead_port hb ha ho hp⟩, rfl,
    readGlobal_addrHi_eq_ofNat s, readGlobal_channel_eq_ofNat s, readGlobal_retry_eq_ofNat s,
    readGlobal_params_eq_ofNat, rfl, rfl, rfl, rfl, rfl, fun p x hx => ?_⟩
  have hread := readPort_eq hx
  refine ⟨hread 0x00, ?_, hread 0x08, ?_, fun k => ?_, hread 0x18, ?_, fun k => ?_⟩
  · rw [BitVec.ofNat_toNat]
    exact hread 0x04
  · rw [BitVec.ofNat_toNat]
    exact hread 0x0C
  · rw [hread, if_neg (by omega), readOperand_frameData _ (by omega)]
    exact readLanes_extract x.regs.frameData k
  · rw [BitVec.ofNat_toNat]
    exact hread 0x1C
  · rw [hread, if_neg (by omega), readOperand_pktBuf _ (by omega)]
    exact readLanes_extract x.regs.pktBuf k

/-! ### A command that waits, the model's stops, and reset -/

/-- Settles O16: in each case the command is legal and waits, so issuing it latches it. -/
theorem waitingCommandIsLatched : Obligations.WaitingCommandIsLatched := by
  intro s p x c hx hn hcase
  have hwait : (legal c s.life && waits c s) = true := by
    rw [Bool.and_eq_true]
    rcases hcase with ⟨rfl, hl, hq⟩ | ⟨hc, hl, hstep⟩ | ⟨rfl, hl, hstep⟩
    · exact ⟨(legal_not_init (by decide) (by decide) (by decide)).mpr hl, by simp [waits, hq]⟩
    · refine ⟨(legal_lifecycle hc).mpr hl, ?_⟩
      rcases hc with rfl | rfl | rfl <;> exact (busy_iff s).mpr hstep
    · exact ⟨by rw [hl]; rfl, (busy_iff s).mpr hstep⟩
  rw [exec_instr, onPort_some _ hx, issueCommand_idle _ _ hx hn, if_pos hwait, latchCommand,
    portOf_of_getElem? hx]
  rfl

theorem busTarget_outside {s : State} {addr : Nat}
    (h : addr < s.params.base ∨ s.params.base + 0x100 * (s.ports.length + 1) ≤ addr) :
    busTarget s addr = none := by
  unfold busTarget
  by_cases hlo : addr < s.params.base
  · rw [if_pos hlo]
  · rw [if_neg hlo, if_neg (by omega), if_neg (by omega)]

theorem decodePosition_unreachable :
    ∀ v : BitVec 4, 10 < v.toNat → decode (.position v) = .error .unreachablePosition := by
  decide

/-- Settles O55: an address without a target, a port without a record, and the two engine faults. -/
theorem stopsStandOutsideTheRules : Obligations.StopsStandOutsideTheRules := by
  intro s
  refine ⟨fun addr width v h => ?_, fun p hp => ⟨fun c => ?_, fun dlc body => ?_⟩,
    fun hk hq => ?_, fun hk => ?_⟩
  · simp only [busRead, busWrite, busTarget_outside h, and_self]
  · rw [exec_instr]
    exact onPort_none _ hp
  · exact ⟨onPort_none _ hp, onPort_none _ hp⟩
  · have hexec : exec .s9Write s = execS9Write s := rfl
    rw [hexec, execS9Write, atStep_at hk, popOut, hq]
  · rw [engineTurn, decodePosition_unreachable _ hk]

/-- Settles O47, element by element. -/
theorem resetStateHoldsItsValues : Obligations.ResetStateHoldsItsValues := by
  refine ⟨rfl, rfl, rfl, rfl, rfl, rfl, rfl, rfl, rfl, rfl, fun x hx => ?_⟩
  rw [List.eq_of_mem_replicate hx]
  exact ⟨rfl, rfl, rfl⟩

/-- Settles O56: the ports are reset ports, the rest is a closed state. -/
theorem resetIsSound : Obligations.ResetIsSound := by
  refine (sound_iff State.reset).mpr ⟨?_, (forall_ports_iff State.reset).mp fun x hx => ?_⟩
  · constructor <;> decide
  · rw [List.eq_of_mem_replicate hx]
    exact portSound_reset _

end Sys2Proof.Machine
end

section
/-! The memory family's proofs: a bus access inside the window has a target and only an access
without one stops the machine, and both FIFOs obey one set of rules, which keep order without loss. -/

namespace Sys2Proof.Machine

open Sys2Proof Config

/-! ### Bus accesses the block decodes -/

theorem exists_busTarget_of_inside {s : State} {addr : Nat} (hlo : s.params.base ≤ addr)
    (hhi : addr < s.params.base + 0x100 * (s.ports.length + 1)) :
    ∃ tgt, busTarget s addr = some tgt := by
  unfold busTarget
  rw [if_neg (by omega)]
  split
  · exact ⟨_, rfl⟩
  · exact ⟨_, if_pos (by omega)⟩

theorem admitted_eq_false_iff (addr width : Nat) :
    admitted addr width = false ↔ ¬(width = 4 ∧ addr % 4 = 0) := by
  simp [admitted]

/-- Settles O49: the address has a target, and the access to it is not admitted. -/
theorem unalignedAccessIsBusError : Obligations.UnalignedAccessIsBusError := by
  intro s addr width v hlo hhi hbad
  obtain ⟨tgt, htgt⟩ := exists_busTarget_of_inside hlo hhi
  have hrefused : admitted addr width = false := (admitted_eq_false_iff addr width).mpr hbad
  simp [busRead, busWrite, htgt, hrefused, respond]

/-! ### Where a step stops -/

theorem busTarget_takeInput (s : State) (addr : Nat) :
    busTarget (takeInput s).2 addr = busTarget s addr := by
  simp only [busTarget, takeInput_params, takeInput_ports]

/-- A word written to the CMD of a port the block has is run, latched, dropped or ILLEGAL, and never
refused. -/
theorem issueWord_progress {s : State} {p : Nat} (hp : p < s.ports.length) (w : Word) :
    ∃ t, issueWord p w s = .next t := by
  cases hd : decode (.command p w) with
  | error e => exact ⟨illegalCommand p s, by rw [issueWord, hd]⟩
  | ok i =>
    obtain ⟨c, -, rfl⟩ := decode_command_ok hd
    exact ⟨_, by rw [issueWord_ok hd, exec_instr, onPort_some _ (getElem?_portOf hp)]⟩

theorem busRead_progress {s : State} {addr : Nat} {tgt : Target}
    (htgt : busTarget s addr = some tgt) (width : Nat) : ∃ t, busRead addr width s = .next t := by
  simp only [busRead, htgt]
  split <;> exact ⟨_, rfl⟩

theorem busWrite_progress {s : State} {addr : Nat} {tgt : Target}
    (htgt : busTarget s addr = some tgt) (width : Nat) (v : Word) :
    ∃ t, busWrite addr width v s = .next t := by
  simp only [busWrite, htgt]
  split
  · cases tgt with
    | global off => exact ⟨_, rfl⟩
    | port p off =>
      obtain ⟨hp, -, -⟩ := busTarget_eq_port htgt
      simp only [writeTarget]
      split
      · exact issueWord_progress (s := respond .done s) hp v
      · exact ⟨_, rfl⟩
  · exact ⟨_, rfl⟩

/-- Settles O58: a bus access stops only for want of a target, a sound engine's step never does, and
no other input's turn can. -/
theorem onlyUndecodedAccessStops : Obligations.OnlyUndecodedAccessStops := by
  intro s hs
  obtain ⟨l, d, hs'⟩ := takeInput_snd s
  rw [step_eq]
  cases hi : (takeInput s).1 with
  | busRead addr width =>
    cases htgt : busTarget s addr with
    | none =>
      exact .inr ⟨by simp only [takeTurn, busRead, busTarget_takeInput, htgt], addr, width, .inl rfl,
        htgt⟩
    | some tgt => exact .inl (busRead_progress ((busTarget_takeInput s addr).trans htgt) width)
  | busWrite addr width v =>
    cases htgt : busTarget s addr with
    | none =>
      exact .inr ⟨by simp only [takeTurn, busWrite, busTarget_takeInput, htgt], addr, width,
        .inr ⟨v, rfl⟩, htgt⟩
    | some tgt => exact .inl (busWrite_progress ((busTarget_takeInput s addr).trans htgt) width v)
  | engine =>
    have hblock : BlockSound (takeInput s).2 := by
      rw [hs']
      exact { ((sound_iff s).mp hs).1 with }
    obtain ⟨t, ht, -⟩ := engineTurn_moves hblock
    exact .inl ⟨t, ht⟩
  | irq | rst | port | answer => exact .inl ⟨_, rfl⟩

/-! ### The two FIFOs -/

/-- `s` with OUTQ holding `q`. -/
def withOutq (s : State) (q : List Packet) : State := { s with outq := q }

/-- `s` with INQ holding `q`. -/
def withInq (s : State) (q : List Packet) : State := { s with inq := q }

/-- What the operations of one FIFO do (R80, R81, R83, R84): `holding q` is the state in which it
holds `q`. `outqRules` and `inqRules` say that both FIFOs of the block are such. -/
structure FifoRules (cap : Nat) (holding : List Packet → State)
    (push : Packet → State → Option State) (pop : State → Option (Packet × State))
    (pushAll : List Packet → State → Option State)
    (popMany : Nat → State → Option (List Packet × State)) : Prop where
  /-- A push appends while there is room and is refused without. -/
  push_eq : ∀ p q, push p (holding q) = if q.length < cap then some (holding (q ++ [p])) else none
  /-- A pop takes the head. -/
  pop_cons : ∀ p q, pop (holding (p :: q)) = some (p, holding q)
  /-- Pushing no packets leaves the state. -/
  pushAll_nil : ∀ s, pushAll [] s = some s
  /-- Packets are pushed first to last. -/
  pushAll_cons : ∀ {p s t} ps, push p s = some t → pushAll (p :: ps) s = pushAll ps t
  /-- Popping no packets leaves the state. -/
  popMany_zero : ∀ s, popMany 0 s = some ([], s)
  /-- Packets are given back first popped first. -/
  popMany_succ : ∀ {p s t} n, pop s = some (p, t) →
    popMany (n + 1) s = (popMany n t).map fun r => (p :: r.1, r.2)

theorem outqRules (s : State) :
    FifoRules s.params.qcap (withOutq s) pushOut popOut pushAllOut popManyOut where
  push_eq _ _ := rfl
  pop_cons _ _ := rfl
  pushAll_nil _ := rfl
  pushAll_cons ps h := by rw [pushAllOut, h]
  popMany_zero _ := rfl
  popMany_succ n h := by rw [popManyOut, h]

theorem inqRules (s : State) :
    FifoRules s.params.qcap (withInq s) pushIn popIn pushAllIn popManyIn where
  push_eq _ _ := rfl
  pop_cons _ _ := rfl
  pushAll_nil _ := rfl
  pushAll_cons ps h := by rw [pushAllIn, h]
  popMany_zero _ := rfl
  popMany_succ n h := by rw [popManyIn, h]

namespace FifoRules

variable {cap : Nat} {holding : List Packet → State} {push : Packet → State → Option State}
  {pop : State → Option (Packet × State)} {pushAll : List Packet → State → Option State}
  {popMany : Nat → State → Option (List Packet × State)}

theorem pushAll_of_room (h : FifoRules cap holding push pop pushAll popMany) (ps q : List Packet)
    (hroom : q.length + ps.length ≤ cap) :
    pushAll ps (holding q) = some (holding (q ++ ps)) := by
  induction ps generalizing q with
  | nil => rw [h.pushAll_nil, List.append_nil]
  | cons p ps ih =>
    rw [List.length_cons] at hroom
    have hpush : push p (holding q) = some (holding (q ++ [p])) := by
      rw [h.push_eq, if_pos (by omega)]
    rw [h.pushAll_cons ps hpush, ih (q ++ [p]) (by simp; omega), List.append_assoc,
      List.singleton_append]

theorem popMany_append (h : FifoRules cap holding push pop pushAll popMany) (ps q : List Packet) :
    popMany ps.length (holding (ps ++ q)) = some (ps, holding q) := by
  induction ps with
  | nil => exact h.popMany_zero _
  | cons p ps ih =>
    rw [List.length_cons, List.cons_append, h.popMany_succ ps.length (h.pop_cons p (ps ++ q)), ih]
    rfl

/-- R44 and R85 for one FIFO: what an empty one takes within its capacity it gives back in order, and
a full one refuses. -/
theorem keepsOrderWithoutLoss (h : FifoRules cap holding push pop pushAll popMany)
    (ps : List Packet) (hfit : ps.length ≤ cap) (p : Packet) :
    pushAll ps (holding []) = some (holding ps) ∧
      popMany ps.length (holding ps) = some (ps, holding []) ∧
      (ps.length = cap → push p (holding ps) = none) := by
  refine ⟨h.pushAll_of_room ps [] (by simpa using hfit), ?_, fun hfull => ?_⟩
  · simpa using h.popMany_append ps []
  · rw [h.push_eq, if_neg (by omega)]

end FifoRules

/-- Settles O40: a state whose FIFO is empty is that state with the FIFO holding nothing, and each
FIFO's rules keep order without loss. -/
theorem fifoKeepsOrderWithoutLoss : Obligations.FifoKeepsOrderWithoutLoss := by
  intro s ps p hfit
  refine ⟨fun hempty => ⟨withOutq s ps, ?_⟩, fun hempty => ⟨withInq s ps, ?_⟩⟩
  · have hs : withOutq s [] = s := by rw [withOutq, ← hempty]
    obtain ⟨hpush, hpop, hfull⟩ := (outqRules s).keepsOrderWithoutLoss ps hfit p
    rw [hs] at hpush hpop
    exact ⟨hpush, rfl, hpop, hfull⟩
  · have hs : withInq s [] = s := by rw [withInq, ← hempty]
    obtain ⟨hpush, hpop, hfull⟩ := (inqRules s).keepsOrderWithoutLoss ps hfit p
    rw [hs] at hpush hpop
    exact ⟨hpush, rfl, hpop, hfull⟩

end Sys2Proof.Machine
end

section
/-! The encoding family's proofs, what reading a packet does: which bytes of its image Decode reads,
Decode of a packet given byte by byte, and the port that takes the outcome. -/

namespace Sys2Proof.Machine

open Sys2Proof Config

/-! ### The bytes Decode reads -/

theorem imageOf_getElem (pkt : Packet) {k : Nat} (hk : k < 32) :
    (imageOf pkt)[k] = pkt.getD k 0 := by
  simp [imageOf]

/-- The image of the packet in the first `n` bytes of an image agrees with it on these bytes. -/
theorem imageOf_packetOf (n : Nat) (b : Vector Byte 32) (k : Fin 32) (hk : k.val < n) :
    b[k] = (imageOf (packetOf n b))[k] := by
  simp [packetOf, imageOf_getElem, List.getElem?_take_of_lt hk]

section Congr

variable {n : Nat} {b b' : Vector Byte 32}

/-- A payload inside the packet is the same in two images that agree on the packet. -/
theorem dataFrom_congr (h : ∀ k : Fin 32, k.val < n → b[k] = b'[k]) {hdr dlc : Nat}
    (hfit : hdr + dlc ≤ n) : dataFrom b hdr dlc = dataFrom b' hdr dlc := by
  refine Vector.ext fun i hi => ?_
  simp only [dataFrom, Vector.getElem_ofFn]
  by_cases hlt : i < dlc
  · by_cases h32 : hdr + i < 32
    · have hbyte : b[hdr + i] = b'[hdr + i] := h ⟨hdr + i, h32⟩ (by simp only; omega)
      simp [h32, hbyte]
    · simp [h32]
  · simp [hlt]

theorem decodeStandard_congr (h : ∀ k : Fin 32, k.val < n → b[k] = b'[k]) (dlc : BitVec 7) :
    decodeStandard n dlc b = decodeStandard n dlc b' := by
  unfold decodeStandard
  by_cases hfit : 3 + dlc.toNat ≤ n
  · have h1 : b[1] = b'[1] := h 1 (by simp only [Fin.val_one]; omega)
    have h2 : b[2] = b'[2] := h 2 (by simp only [Fin.val_two]; omega)
    rw [h1, h2, dataFrom_congr h hfit]
  · simp only [gt_iff_lt, Nat.not_le.mp hfit, if_true]

theorem decodeExtended_congr (h : ∀ k : Fin 32, k.val < n → b[k] = b'[k]) (dlc : BitVec 7) :
    decodeExtended n dlc b = decodeExtended n dlc b' := by
  unfold decodeExtended
  by_cases hfit : 5 + dlc.toNat ≤ n
  · have hbyte : ∀ k : Fin 32, k.val < 5 → b[k] = b'[k] := fun k hk => h k (by omega)
    have h1 : b[1] = b'[1] := hbyte 1 (by decide)
    have h2 : b[2] = b'[2] := hbyte 2 (by decide)
    have h3 : b[3] = b'[3] := hbyte 3 (by decide)
    have h4 : b[4] = b'[4] := hbyte 4 (by decide)
    rw [h1, h2, h3, h4, dataFrom_congr h hfit]
  · simp only [gt_iff_lt, Nat.not_le.mp hfit, if_true]

/-- Decode reads no byte at or past the packet's size (R69, R72). -/
theorem decodeFrame_congr (h : ∀ k : Fin 32, k.val < n → b[k] = b'[k]) :
    decodeFrame n b = decodeFrame n b' := by
  unfold decodeFrame
  by_cases h3 : n < 3
  · simp only [checkSize, h3, if_true]
  · have h0 : b[0] = b'[0] := h 0 (by simp only [Fin.val_zero]; omega)
    rw [h0, decodeStandard_congr h, decodeExtended_congr h]

end Congr

/-! ### Decode of a packet given byte by byte -/

/-- Past the size checks byte 0 alone picks the format (R50, R65). -/
theorem decodeFrame_packet {body : List Byte} (h3 : 2 ≤ body.length) (h32 : body.length ≤ 31)
    (ext : Bool) (dlc : BitVec 7) :
    decodeFrame (1 + body.length) (imageOf (packetByte0 ext dlc :: body)) =
      if ext then decodeExtended (1 + body.length) dlc (imageOf (packetByte0 ext dlc :: body))
      else decodeStandard (1 + body.length) dlc (imageOf (packetByte0 ext dlc :: body)) := by
  have hlo : ¬1 + body.length < 3 := by omega
  have hhi : ¬1 + body.length > 32 := by omega
  simp [decodeFrame, checkSize, hlo, hhi, imageOf_getElem]

/-- The payload of a packet is what stands after its header (R72). -/
theorem dataFrom_imageOf_append {hdr : List Byte} (h : hdr.length ≤ 24) (rest : List Byte)
    (dlc : Nat) :
    dataFrom (imageOf (hdr ++ rest)) hdr.length dlc =
      Vector.ofFn fun k : Fin 8 => if k.val < dlc then rest.getD k.val 0 else 0 := by
  refine Vector.ext fun i hi => ?_
  have hin : hdr.length + i < 32 := by omega
  simp [dataFrom, hin, imageOf_getElem, List.getElem?_append_right]

/-- Decode's checks of a standard packet, in its bytes (R65, R68 to R70). -/
theorem decodeStandard_packet (b0 b1 b2 : Byte) (rest : List Byte) (dlc : BitVec 7) :
    decodeStandard (1 + (b1 :: b2 :: rest).length) dlc (imageOf (b0 :: b1 :: b2 :: rest)) =
      if 8 < dlc.toNat then .error .decBadDlc
      else if rest.length < dlc.toNat then .error .decTruncated
      else if 0x7FF < 256 * b1.toNat + b2.toNat then .error .decBadId
      else .ok
        ⟨BitVec.ofNat 32 (256 * b1.toNat + b2.toNat), BitVec.ofNat 4 dlc.toNat,
          Vector.ofFn fun k => if k.val < dlc.toNat then rest.getD k.val 0 else 0⟩ := by
  have hid : 256 * b1.toNat + b2.toNat = (b1 ++ b2).toNat := by
    simp only [toNat_append_eq]
    omega
  have hsize : 3 + dlc.toNat > 1 + (b1 :: b2 :: rest).length ↔ rest.length < dlc.toNat := by
    simp only [List.length_cons]
    omega
  have hdata := dataFrom_imageOf_append (hdr := [b0, b1, b2]) (by simp) rest dlc.toNat
  simp only [decodeStandard, hsize, gt_iff_lt, imageOf_getElem, hid, BitVec.ofNat_toNat, ← hdata]
  rfl

/-- Decode's checks of an extended packet of 5 bytes or more, in its bytes (R65, R68 to R71). -/
theorem decodeExtended_packet (b0 b1 b2 b3 b4 : Byte) (rest : List Byte) (dlc : BitVec 7)
    {id : Nat}
    (hid : id = 0x1000000 * b1.toNat + 0x10000 * b2.toNat + 0x100 * b3.toNat + b4.toNat) :
    decodeExtended (1 + (b1 :: b2 :: b3 :: b4 :: rest).length) dlc
        (imageOf (b0 :: b1 :: b2 :: b3 :: b4 :: rest)) =
      if 8 < dlc.toNat then .error .decBadDlc
      else if rest.length < dlc.toNat then .error .decTruncated
      else if 0x1FFFFFFF < id then .error .decBadId
      else if id ≤ 0x7FF then .error .decNonCanonical
      else .ok
        ⟨BitVec.ofNat 32 id, BitVec.ofNat 4 dlc.toNat,
          Vector.ofFn fun k => if k.val < dlc.toNat then rest.getD k.val 0 else 0⟩ := by
  have hval : id = (b1 ++ b2 ++ b3 ++ b4).toNat := by
    simp only [toNat_append_eq]
    omega
  have hsize : 5 + dlc.toNat > 1 + (b1 :: b2 :: b3 :: b4 :: rest).length ↔
      rest.length < dlc.toNat := by
    simp only [List.length_cons]
    omega
  have hdata := dataFrom_imageOf_append (hdr := [b0, b1, b2, b3, b4]) (by simp) rest dlc.toNat
  simp only [decodeExtended, hsize, gt_iff_lt, imageOf_getElem, hval, BitVec.ofNat_toNat, ← hdata]
  rfl

/-- An extended packet without its whole header is truncated, whatever its bytes (R69). -/
theorem decodeExtended_short {n : Nat} (hn : n < 5) (dlc : BitVec 7) (b : Vector Byte 32) :
    decodeExtended n dlc b =
      if 8 < dlc.toNat then .error .decBadDlc else .error .decTruncated := by
  have hsize : n < 5 + dlc.toNat := by omega
  simp only [decodeExtended, gt_iff_lt, hsize, if_true]

/-! ### The port that takes the outcome -/

/-- Port record `x` once Decode's outcome is delivered to it: RESULT alone, or the frame and OK
(R112, R117). `deliver_eq_set` ties it to the model's `deliver`. -/
def delivered (x : Port) : Except ResultCode Frame → Port
  | .error c => { x with result := codeOf c }
  | .ok f => { x with regs := setFrame x.regs f, result := codeOf .ok }

theorem deliver_eq_set {s : State} {p : Nat} {x : Port} (h : s.ports[p]? = some x)
    (r : Except ResultCode Frame) :
    deliver p r s = { s with ports := s.ports.set p (delivered x r) } := by
  cases r with
  | error c => exact deliver_error c h
  | ok f => exact deliver_ok f h

/-- What READ and DECODE end in: the frame and OK, or the DEC_* code alone, by R56's number. -/
theorem next_deliver_decodeFrame {o : Host.Outcome State Fault Refusal} {s : State} {p n : Nat}
    {x : Port} {b : Vector Byte 32} (ho : o = .next (deliver p (decodeFrame n b) s))
    (hx : s.ports[p]? = some x) :
    (∀ f : Frame, decodeFrame n b = .ok f →
      o = .next
        { s with ports := s.ports.set p
                  { x with result := 0x00
                           regs := { x.regs with
                             frameId := f.id, frameDlc := f.dlc, frameData := f.data } } }) ∧
    (∀ c : ResultCode, decodeFrame n b = .error c →
      ∃ k : BitVec 8, (c, k) ∈ decodeCodes ∧
        o = .next { s with ports := s.ports.set p { x with result := k } }) := by
  subst ho
  refine ⟨fun f hf => ?_, fun c hc => ⟨codeOf c, decodeFrame_code hc, ?_⟩⟩
  · rw [hf, deliver_ok f hx]
    rfl
  · rw [hc, deliver_error c hx]

/-! ### A packet's instruction -/

/-- A packet's instruction delivers Decode of its bytes (R65, log entry 12). -/
theorem exec_packet {i : Instr} {p : Nat} {bytes : List Byte} (h : encode i = .packet p bytes)
    (s : State) :
    exec i s = onPort p (deliver p (decodeFrame bytes.length (imageOf bytes))) s := by
  cases i with
  | pktStd q dlc body | pktExt q dlc body =>
    cases h
    rw [List.length_cons, Nat.add_comm]
    cases hsize : checkSize (1 + body.length) <;>
      simp only [exec, execPktStd, execPktExt, decodeFrame, hsize, imageOf_getElem,
        List.getD_cons_zero, packetByte0_msb, packetByte0_setWidth, if_true, Bool.false_eq_true,
        if_false]
  | init | enable | send | read | reset | close | encode | decode | s0Idle | s1Standby | s2Clear
  | s3Listen | s4Poll | s5Read | s6MaxRt | s7TxDs | s8Chan | s9Write | s10Yield => cases h

/-- On a port of the block the outcome goes to that port's record and nothing else changes. -/
theorem exec_packet_on_port {i : Instr} {p : Nat} {bytes : List Byte} {s : State} {x : Port}
    (h : encode i = .packet p bytes) (hx : s.ports[p]? = some x) :
    exec i s = .next
      { s with
        ports := s.ports.set p (delivered x (decodeFrame bytes.length (imageOf bytes))) } := by
  rw [exec_packet h, onPort_some _ hx, deliver_eq_set hx]

/-- A packet of 3 to 32 bytes is read by its own format's checks. -/
theorem exec_packet_of_size {i : Instr} {p : Nat} {ext : Bool} {dlc : BitVec 7} {body : List Byte}
    {s : State} {x : Port} (h : encode i = .packet p (packetByte0 ext dlc :: body))
    (hx : s.ports[p]? = some x) (h3 : 2 ≤ body.length) (h32 : body.length ≤ 31) :
    exec i s = .next
      { s with ports := s.ports.set p (delivered x
          (if ext then decodeExtended (1 + body.length) dlc (imageOf (packetByte0 ext dlc :: body))
            else decodeStandard (1 + body.length) dlc
              (imageOf (packetByte0 ext dlc :: body)))) } := by
  rw [exec_packet_on_port h hx, List.length_cons, Nat.add_comm body.length,
    decodeFrame_packet h3 h32]

end Sys2Proof.Machine
end

section
/-! The encoding family's proofs, the obligations: the two packet formats, READ and DECODE, and the
words that are no command. -/

namespace Sys2Proof.Machine

open Sys2Proof Config

/-! ### The packet formats -/

/-- Settles O11: the port takes what the checks of the standard format decide. -/
theorem standardPacketIsRead : Obligations.StandardPacketIsRead := by
  intro s p x dlc b1 b2 rest hx hlen
  have henc : encode (.pktStd p dlc (b1 :: b2 :: rest)) =
      .packet p (packetByte0 false dlc :: b1 :: b2 :: rest) := rfl
  rw [exec_packet_of_size henc hx (by simp) (by simp; omega), if_neg Bool.false_ne_true,
    decodeStandard_packet]
  simp only [apply_ite (delivered x)]
  rfl

/-- Settles O12: a packet of 3 or 4 bytes has no whole header; the others give their bytes to the
checks of the extended format. -/
theorem extendedPacketIsRead : Obligations.ExtendedPacketIsRead := by
  intro s p x dlc hx
  have henc : ∀ body, encode (.pktExt p dlc body) = .packet p (packetByte0 true dlc :: body) :=
    fun _ => rfl
  refine ⟨fun body h2 h4 => ?_, fun b1 b2 b3 b4 rest id hlen hid => ?_⟩
  · rw [exec_packet_of_size (henc _) hx h2 (by omega), if_pos rfl, decodeExtended_short (by omega),
      apply_ite (delivered x)]
    split <;> rfl
  · rw [exec_packet_of_size (henc _) hx (by simp) (by simp; omega), if_pos rfl,
      decodeExtended_packet (hid := hid)]
    simp only [apply_ite (delivered x)]
    rfl

/-! ### READ and DECODE -/

section Commands

variable {s : State} {p : Nat} {x : Port}

/-- A command that need not wait runs at once, on the port's own operand registers (R106). -/
theorem exec_instr_run {c : Command} (hx : s.ports[p]? = some x) (hn : x.pend = none)
    (hw : (legal c s.life && waits c s) = false) :
    exec (c.instr p) s = .next (runCommand c p x.regs s) := by
  rw [exec_instr, onPort_some _ hx, issueCommand_idle _ _ hx hn, if_neg (by simp [hw])]

theorem exec_decode_run (hx : s.ports[p]? = some x) (hn : x.pend = none) :
    exec (.decode p) s =
      .next (deliver p (decodeFrame x.regs.pktSize.toNat x.regs.pktBuf) s) :=
  exec_instr_run (c := .decode) hx hn (Bool.and_false _)

theorem exec_read_run {pkt : Packet} {rest : List Packet} (hx : s.ports[p]? = some x)
    (hn : x.pend = none) (hl : s.life = .ready ∨ s.life = .enabled) (hq : s.inq = pkt :: rest) :
    exec (.read p) s =
      .next (deliver p (decodeFrame pkt.length (imageOf pkt)) { s with inq := rest }) := by
  have hlegal : legal .read s.life = true :=
    (legal_not_init (by decide) (by decide) (by decide)).mpr hl
  have hw : (legal .read s.life && waits .read s) = false := by simp [waits, hq]
  have hpop : popIn s = some (pkt, { s with inq := rest }) := by rw [popIn, hq]
  refine (exec_instr_run (c := .read) hx hn hw).trans ?_
  simp only [runCommand, readBody, hlegal, if_true, hpop]

theorem exec_read_illegal (hx : s.ports[p]? = some x) (hn : x.pend = none)
    (hl : s.life = .off ∨ s.life = .fatal) :
    exec (.read p) s = .next (setResult p .errState s) := by
  have hlegal : legal .read s.life = false := by rcases hl with h | h <;> rw [h] <;> rfl
  have hw : (legal .read s.life && waits .read s) = false := by rw [hlegal, Bool.false_and]
  refine (exec_instr_run (c := .read) hx hn hw).trans ?_
  simp only [runCommand, readBody, hlegal, Bool.false_eq_true, if_false]

end Commands

/-- Settles O5: all three deliver the same Decode, because Decode does not read past the packet. -/
theorem readAndDecodeRunThePacket : Obligations.ReadAndDecodeRunThePacket := by
  intro s p x i hx hn
  refine ⟨fun pkt rest hl hq hd => ?_, fun hsize hd => ?_⟩
  · have henc := encodeOfDecodeIsIdentity _ _ hd
    have hx' : ({ s with inq := rest } : State).ports[p]? = some x := hx
    rw [exec_read_run hx hn hl hq, exec_packet henc, onPort_some _ hx']
  · have henc := encodeOfDecodeIsIdentity _ _ hd
    have hlen : (x.regs.pktBuf.toList.take x.regs.pktSize.toNat).length =
        x.regs.pktSize.toNat := by
      simpa using hsize
    rw [exec_decode_run hx hn, exec_packet henc, onPort_some _ hx, hlen,
      decodeFrame_congr (imageOf_packetOf x.regs.pktSize.toNat x.regs.pktBuf), packetOf]

/-- Settles O21: the outcome of the popped packet is delivered; OFF and FATAL pop nothing. -/
theorem readTakesTheHeadOfInq : Obligations.ReadTakesTheHeadOfInq := by
  intro s p x pkt rest hx hn
  refine ⟨fun hl hq => ?_, fun hl => ?_⟩
  · have hx' : ({ s with inq := rest } : State).ports[p]? = some x := hx
    exact next_deliver_decodeFrame (exec_read_run hx hn hl hq) hx'
  · rw [exec_read_illegal hx hn hl, setResult_eq _ hx]
    rfl

/-- Settles O25: the outcome of the packet registers is delivered. -/
theorem decodeWritesTheFrameRegisters : Obligations.DecodeWritesTheFrameRegisters := by
  intro s p x hx hn
  exact next_deliver_decodeFrame (exec_decode_run hx hn) hx

/-! ### Words that are no command -/

/-- The command words are the numbers 1 to 8, on all 32 bits (R54, R55). -/
theorem exists_decodeCommand_iff (w : Word) :
    (∃ c, decodeCommand w = some c) ↔ 1 ≤ w.toNat ∧ w.toNat ≤ 8 := by
  constructor
  · rintro ⟨c, hc⟩
    have hw := encode_of_decodeCommand hc 0
    cases c <;> cases hw <;> decide
  · rintro ⟨hlo, hhi⟩
    have hw : w = BitVec.ofNat 32 w.toNat := by simp
    generalize w.toNat = k at hlo hhi hw
    subst hw
    interval_cases k <;> exact ⟨_, rfl⟩

theorem exists_decode_command_iff (p : Nat) (w : Word) :
    (∃ i, decode (.command p w) = .ok i) ↔ 1 ≤ w.toNat ∧ w.toNat ≤ 8 := by
  rw [← exists_decodeCommand_iff]
  constructor
  · rintro ⟨i, hi⟩
    obtain ⟨c, hc, -⟩ := decode_command_ok hi
    exact ⟨c, hc⟩
  · rintro ⟨c, hc⟩
    exact ⟨c.instr p, by rw [decode, hc]⟩

theorem illegalCommand_idle {s : State} {p : Nat} {x : Port} (hx : s.ports[p]? = some x)
    (hn : x.pend = none) : illegalCommand p s = setResult p .errIllegalCmd s := by
  simp only [illegalCommand, portOf_of_getElem? hx, hn]

/-- Settles O14: a word outside 1 to 8 is issued as ILLEGAL, which writes RESULT. -/
theorem illegalWordWritesOnlyResult : Obligations.IllegalWordWritesOnlyResult := by
  intro s p x w hx hn
  refine ⟨exists_decode_command_iff p w, fun hw => ?_⟩
  have hissue : issueWord p w s = .next (illegalCommand p s) := by
    rw [issueWord]
    cases hd : decode (.command p w) with
    | error r => rfl
    | ok i => exact absurd ((exists_decode_command_iff p w).mp ⟨i, hd⟩) hw
  rw [hissue, illegalCommand_idle hx hn, setResult_eq _ hx]
  rfl

end Sys2Proof.Machine
end

section
/-! The codec family's proofs: Encode's packets byte for byte, Decode's checks in their order, and
what Decode accepts in the terms of Encode, from which the round trip follows. -/

namespace Sys2Proof.Machine

open Sys2Proof

/-! ### Encode -/

theorem validFrame_iff (f : Frame) :
    validFrame f = true ↔ f.dlc.toNat ≤ 8 ∧ f.id.toNat ≤ 0x1FFFFFFF := by
  simp [validFrame]

/-- Encode of a valid frame is its header and its payload (R63, R64). -/
theorem encodeFrame_of_valid {f : Frame} (h : validFrame f = true) :
    encodeFrame f = .ok (headerOf f ++ payload f) := by
  obtain ⟨hdlc, hid⟩ := (validFrame_iff f).mp h
  rw [encodeFrame, if_neg (by omega), if_neg (by omega)]

theorem extractLsb'_eq_ofNat_div {w : Nat} (x : BitVec w) (k n : Nat) :
    x.extractLsb' k n = BitVec.ofNat n (x.toNat / 2 ^ k) := by
  rw [BitVec.extractLsb', Nat.shiftRight_eq_div_pow]

/-- Byte 0 of the extended format (R63): the extended flag stands above the dlc field. -/
theorem extendedByte0_eq : ∀ dlc : BitVec 4,
    0x80#8 ||| dlc.setWidth 8 = BitVec.ofNat 8 (0x80 + dlc.toNat) := by
  decide

theorem headerOf_extended {f : Frame} (h : 0x7FF < f.id.toNat) :
    headerOf f = [BitVec.ofNat 8 (0x80 + f.dlc.toNat), BitVec.ofNat 8 (f.id.toNat / 0x1000000),
      BitVec.ofNat 8 (f.id.toNat / 0x10000), BitVec.ofNat 8 (f.id.toNat / 0x100),
      BitVec.ofNat 8 f.id.toNat] := by
  simp [headerOf, h, extendedByte0_eq, extractLsb'_eq_ofNat_div]

theorem headerOf_standard {f : Frame} (h : f.id.toNat ≤ 0x7FF) :
    headerOf f = [BitVec.ofNat 8 f.dlc.toNat, BitVec.ofNat 8 (f.id.toNat / 0x100),
      BitVec.ofNat 8 f.id.toNat] := by
  simp [headerOf, Nat.not_lt.mpr h, extractLsb'_eq_ofNat_div]

theorem length_headerOf (f : Frame) :
    (headerOf f).length = if 0x7FF < f.id.toNat then 5 else 3 := by
  unfold headerOf
  split <;> rfl

theorem length_headerOf_le (f : Frame) : (headerOf f).length ≤ 5 := by
  rw [length_headerOf]
  split <;> decide

theorem length_payload {f : Frame} (h : f.dlc.toNat ≤ 8) : (payload f).length = f.dlc.toNat := by
  simpa [payload] using h

/-- Settles O7: a valid frame gives its header and its payload, the header byte for byte by its
format. -/
theorem encodeRefusesOrGivesThePacket : Obligations.EncodeRefusesOrGivesThePacket := by
  intro f
  refine ⟨fun hdlc => if_pos hdlc, fun hdlc hid => ?_, fun hdlc hext hid => ?_, fun hdlc hid => ?_,
    fun pkt hpkt => ⟨?_, encodeFrame_size hpkt⟩⟩
  · rw [encodeFrame, if_neg (by omega), if_pos hid]
  · rw [encodeFrame_of_valid ((validFrame_iff f).mpr ⟨hdlc, hid⟩), headerOf_extended hext, payload]
  · rw [encodeFrame_of_valid ((validFrame_iff f).mpr ⟨hdlc, by omega⟩), headerOf_standard hid,
      payload]
  · obtain ⟨hdlc, rfl⟩ : f.dlc.toNat ≤ 8 ∧ headerOf f ++ payload f = pkt := by
      unfold encodeFrame at hpkt
      split_ifs at hpkt with hdlc
      cases hpkt
      exact ⟨by omega, rfl⟩
    rw [List.length_append, length_headerOf, length_payload hdlc]

/-! ### Decode -/

theorem byte_msb_iff (b : Byte) : b.msb = true ↔ 0x80 ≤ b.toNat := by
  simp [BitVec.msb_eq_decide]

theorem dataFrom_eq_getD (b : Vector Byte 32) (hdr dlc : Nat) :
    dataFrom b hdr dlc =
      Vector.ofFn fun k : Fin 8 => if k.val < dlc then b.toList.getD (hdr + k.val) 0 else 0 := by
  simp [dataFrom]

/-- Settles O8: past the size checks byte 0 picks the format, and the id bytes put together are the
number they hold. -/
theorem decodeChecksInOrder : Obligations.DecodeChecksInOrder := by
  rintro n b dlc hdr id hdlc rfl hid
  have hfield : (b[0].setWidth 7).toNat = dlc := by rw [hdlc, BitVec.toNat_setWidth]
  have hdlc4 : (b[0].setWidth 7).setWidth 4 = BitVec.ofNat 4 dlc := by
    rw [← hfield, BitVec.ofNat_toNat]
  simp only [← dataFrom_eq_getD]
  by_cases h3 : n < 3
  · simp only [decodeFrame, checkSize, if_pos h3]
  by_cases h32 : 32 < n
  · simp only [decodeFrame, checkSize, if_neg h3, gt_iff_lt, if_pos h32]
  simp only [decodeFrame, checkSize, h3, h32, if_false, byte_msb_iff]
  by_cases hext : 0x80 ≤ b[0].toNat
  · have hval : (b[1] ++ b[2] ++ b[3] ++ b[4]).toNat = id := by
      simp only [hid, if_pos hext, toNat_append_eq]
      omega
    have hid32 : b[1] ++ b[2] ++ b[3] ++ b[4] = BitVec.ofNat 32 id := by
      rw [← hval, BitVec.ofNat_toNat, BitVec.setWidth_eq]
    simp only [hext, if_true, true_and, decodeExtended, hfield, hval, gt_iff_lt, hdlc4]
    rw [hid32]
  · have hval : (b[1] ++ b[2]).toNat = id := by
      simp only [hid, if_neg hext, toNat_append_eq]
      omega
    have hid32 : (b[1] ++ b[2]).setWidth 32 = BitVec.ofNat 32 id := by
      rw [← hval, BitVec.ofNat_toNat]
    simp only [hext, if_false, false_and, decodeStandard, hfield, hval, gt_iff_lt, hdlc4]
    rw [hid32]

/-- Settles O9: Decode reads a byte only after the check that it is inside the packet. -/
theorem decodeReadsOnlyThePacket : Obligations.DecodeReadsOnlyThePacket :=
  fun _ _ _ => decodeFrame_congr

/-! ### The frames Decode gives -/

/-- What the id bytes of the image `b` hold, by the extended flag in byte 0 (R70):
`decodeFrame_eq_ok_iff` ties it to the model's `decodeFrame`. -/
def idField (b : Vector Byte 32) : Nat :=
  if 0x80 ≤ b[0].toNat then
    0x1000000 * b[1].toNat + 0x10000 * b[2].toNat + 0x100 * b[3].toNat + b[4].toNat
  else 0x100 * b[1].toNat + b[2].toNat

theorem take_toList (b : Vector Byte 32) {n : Nat} (hn : n ≤ 32) :
    b.toList.take n = List.ofFn fun k : Fin n => b[k.val] :=
  List.ext_getElem (by simpa using hn) fun i _ _ => by simp

/-- The packet in an image begins with a frame's header exactly when its extended flag, its dlc field
and its id field are the frame's (R63, R65). -/
theorem take_headerOf_iff (b : Vector Byte 32) (f : Frame) :
    b.toList.take (headerOf f).length = headerOf f ↔
      (0x80 ≤ b[0].toNat ↔ 0x7FF < f.id.toNat) ∧ b[0].toNat % 0x80 = f.dlc.toNat ∧
        idField b = f.id.toNat := by
  have hdlc := f.dlc.isLt
  unfold idField
  by_cases hext : 0x7FF < f.id.toNat
  · have htake : b.toList.take 5 = [b[0], b[1], b[2], b[3], b[4]] := take_toList b (by decide)
    rw [length_headerOf, if_pos hext, headerOf_extended hext, htake]
    simp only [List.cons.injEq, ← BitVec.toNat_inj, BitVec.toNat_ofNat, and_true]
    split <;> omega
  · have htake : b.toList.take 3 = [b[0], b[1], b[2]] := take_toList b (by decide)
    rw [length_headerOf, if_neg hext, headerOf_standard (Nat.not_lt.mp hext), htake]
    simp only [List.cons.injEq, ← BitVec.toNat_inj, BitVec.toNat_ofNat, and_true]
    split <;> omega

/-- The packet of size `n` in the image `b` is one of the frame `f`, with or without bytes past its
payload: it begins with the header Encode gives `f`. -/
structure HoldsFrame (n : Nat) (b : Vector Byte 32) (f : Frame) : Prop where
  /-- The packet is at most MAXPAY bytes (R67). -/
  size_le : n ≤ 32
  /-- Header and payload are inside the packet (R69). -/
  fits : (headerOf f).length + f.dlc.toNat ≤ n
  /-- The frame is valid (R9). -/
  valid : validFrame f = true
  /-- The packet begins with the frame's header (R63). -/
  header : b.toList.take (headerOf f).length = headerOf f
  /-- The frame's data is the bytes after the header, zero past the payload (R72). -/
  data : f.data = dataFrom b (headerOf f).length f.dlc.toNat

theorem length_headerOf_of_header {b : Vector Byte 32} {f : Frame}
    (h : b.toList.take (headerOf f).length = headerOf f) :
    (headerOf f).length = if 0x80 ≤ b[0].toNat then 5 else 3 := by
  simp only [length_headerOf, ((take_headerOf_iff b f).mp h).1]

/-- A chain of checks ends in a result only when none of them refuses. -/
theorem ite_error_eq_ok_iff {ε α : Type} {c : Prop} [Decidable c] {e : ε} {r : Except ε α} {a : α} :
    (if c then .error e else r) = .ok a ↔ ¬c ∧ r = .ok a := by
  split <;> simp [*]

/-- Decode (R65 to R73) in the terms of Encode (R60 to R64): it accepts the packets that hold a
frame, and gives that frame. -/
theorem decodeFrame_eq_ok_iff {n : Nat} {b : Vector Byte 32} {f : Frame} :
    decodeFrame n b = .ok f ↔ HoldsFrame n b f := by
  rw [decodeChecksInOrder n b _ _ (idField b) rfl rfl rfl, ← dataFrom_eq_getD]
  simp only [ite_error_eq_ok_iff, Except.ok.injEq]
  constructor
  · rintro ⟨-, h32, hdlc, hfits, hid, hcanonical, hf⟩
    have hmax : idField b ≤ 0x1FFFFFFF := by split at hid <;> omega
    have hfdlc : f.dlc.toNat = b[0].toNat % 0x80 := by
      rw [← hf, BitVec.toNat_ofNat]
      omega
    have hfid : f.id.toNat = idField b := by
      rw [← hf, BitVec.toNat_ofNat]
      omega
    have hext : 0x80 ≤ b[0].toNat ↔ 0x7FF < f.id.toNat := by
      split at hid <;> omega
    have hheader := (take_headerOf_iff b f).mpr ⟨hext, hfdlc.symm, hfid.symm⟩
    rw [← length_headerOf_of_header hheader, ← hfdlc] at hfits
    refine ⟨by omega, by omega, (validFrame_iff f).mpr (by omega), hheader, ?_⟩
    rw [length_headerOf_of_header hheader, hfdlc, ← hf]
  · rintro ⟨hsize, hfits, hvalid, hheader, hdata⟩
    obtain ⟨hext, hdlc, hid⟩ := (take_headerOf_iff b f).mp hheader
    obtain ⟨hvdlc, hvid⟩ := (validFrame_iff f).mp hvalid
    rw [length_headerOf_of_header hheader] at hfits hdata
    rw [hdlc, hid, ← hdata, BitVec.ofNat_toNat, BitVec.ofNat_toNat, BitVec.setWidth_eq,
      BitVec.setWidth_eq]
    refine ⟨?_, by omega, by omega, by omega, ?_, by omega, rfl⟩
    · split at hfits <;> omega
    · split <;> omega

/-- Settles O10: each part is a field of `HoldsFrame`, read at the header's length. -/
theorem decodedFrameIsValid : Obligations.DecodedFrameIsValid := by
  intro n b f h
  obtain ⟨hsize, hfits, hvalid, hheader, hdata⟩ := decodeFrame_eq_ok_iff.mp h
  rw [length_headerOf_of_header hheader] at hfits hdata
  simp only [byte_msb_iff]
  refine ⟨hvalid, hfits, hsize, ((take_headerOf_iff b f).mp hheader).1, fun k hk => ?_,
    fun k hk => ?_⟩
  all_goals rw [hdata, dataFrom_eq_getD]
  · simp [Nat.not_lt.mpr hk]
  · simp [hk]

/-! ### The round trip -/

/-- `f` with the bytes its payload does not hold at 0, which is all of `f` that a packet carries. -/
def clearPastPayload (f : Frame) : Frame :=
  { f with data := Vector.ofFn fun k => if k.val < f.dlc.toNat then f.data[k] else 0 }

@[simp] theorem clearPastPayload_id (f : Frame) : (clearPastPayload f).id = f.id := rfl

@[simp] theorem clearPastPayload_dlc (f : Frame) : (clearPastPayload f).dlc = f.dlc := rfl

/-- A header holds nothing of the data. -/
@[simp] theorem headerOf_clearPastPayload (f : Frame) :
    headerOf (clearPastPayload f) = headerOf f := rfl

@[simp] theorem clearPastPayload_getElem (f : Frame) {i : Nat} (hi : i < 8) :
    (clearPastPayload f).data[i] = if i < f.dlc.toNat then f.data[i] else 0 := by
  simp [clearPastPayload]

theorem payload_clearPastPayload (f : Frame) : payload (clearPastPayload f) = payload f := by
  refine List.ext_getElem (by simp [payload]) fun i hi _ => ?_
  have hlt : i < f.dlc.toNat := (lt_min_iff.mp (List.length_take ▸ hi)).1
  simp [payload, hlt]

theorem clearPastPayload_eq_self {f : Frame}
    (h : ∀ k : Fin 8, f.dlc.toNat ≤ k.val → f.data[k] = 0) : clearPastPayload f = f := by
  have hdata : (clearPastPayload f).data = f.data := by
    refine Vector.ext fun i hi => ?_
    rw [clearPastPayload_getElem f hi, ite_eq_left_iff]
    exact fun hge => (h ⟨i, hi⟩ (Nat.not_lt.mp hge)).symm
  change { f with data := (clearPastPayload f).data } = f
  rw [hdata]

theorem take_imageOf {pkt : Packet} (h : pkt.length ≤ 32) {n : Nat} (hn : n ≤ pkt.length) :
    (imageOf pkt).toList.take n = pkt.take n := by
  refine List.ext_getElem (by simp; omega) fun i hi _ => ?_
  have hlt : i < pkt.length := by
    rw [List.length_take] at hi
    omega
  simp [imageOf, hlt]

/-- The packet Encode gives a frame holds that frame, but for the bytes past its payload. -/
theorem holdsFrame_encoded {f : Frame} (h : validFrame f = true) :
    HoldsFrame (headerOf f ++ payload f).length (imageOf (headerOf f ++ payload f))
      (clearPastPayload f) := by
  obtain ⟨hdlc, -⟩ := (validFrame_iff f).mp h
  have hsize : (headerOf f ++ payload f).length ≤ 32 := by
    have := (encodeFrame_size (encodeFrame_of_valid h)).2
    omega
  refine ⟨hsize, ?_, h, ?_, ?_⟩
  · rw [headerOf_clearPastPayload, clearPastPayload_dlc, List.length_append, length_payload hdlc]
  · rw [headerOf_clearPastPayload, take_imageOf hsize (by simp), List.take_left]
  · have hhdr : (headerOf f).length ≤ 24 := (length_headerOf_le f).trans (by decide)
    rw [headerOf_clearPastPayload, clearPastPayload_dlc, dataFrom_imageOf_append hhdr]
    refine Vector.ext fun i hi => ?_
    rw [clearPastPayload_getElem f hi, Vector.getElem_ofFn]
    exact ite_congr rfl (fun hlt => by simp [payload, hlt, hi]) fun _ => rfl

/-- A payload taken from an image is the bytes after the header (R72). -/
theorem payload_eq_take_drop {b : Vector Byte 32} {hdr : Nat} {f : Frame} (hhdr : hdr ≤ 5)
    (hdlc : f.dlc.toNat ≤ 8) (hdata : f.data = dataFrom b hdr f.dlc.toNat) :
    payload f = (b.toList.drop hdr).take f.dlc.toNat := by
  refine List.ext_getElem (by simp [payload]; omega) fun i hi _ => ?_
  rw [length_payload hdlc] at hi
  have hin : hdr + i < 32 := by omega
  simp [payload, hdata, dataFrom, hi, hin]

/-- A packet that ends with its frame's payload is the packet Encode gives the frame. -/
theorem encodeFrame_of_holdsFrame {b : Vector Byte 32} {f : Frame}
    (h : HoldsFrame ((headerOf f).length + f.dlc.toNat) b f) :
    encodeFrame f = .ok (packetOf ((headerOf f).length + f.dlc.toNat) b) := by
  obtain ⟨hdlc, -⟩ := (validFrame_iff f).mp h.valid
  rw [encodeFrame_of_valid h.valid, packetOf, List.take_add, h.header,
    payload_eq_take_drop (length_headerOf_le f) hdlc h.data]

/-- Settles O6: what Encode gives holds the frame, and a held frame with no byte past its payload is
what Encode gives. -/
theorem frameCodecRoundTrip : Obligations.FrameCodecRoundTrip := by
  refine ⟨fun f hvalid => ?_, fun n b f hok hn => ?_⟩
  · refine ⟨_, clearPastPayload f, encodeFrame_of_valid hvalid,
      decodeFrame_eq_ok_iff.mpr (holdsFrame_encoded hvalid), ?_, clearPastPayload_eq_self⟩
    simp only [sameCanFrame, payload_clearPastPayload, clearPastPayload_id, clearPastPayload_dlc,
      decide_true, Bool.and_self]
  · have hholds := decodeFrame_eq_ok_iff.mp hok
    simp only [byte_msb_iff] at hn
    rw [← length_headerOf_of_header hholds.header] at hn
    subst hn
    exact encodeFrame_of_holdsFrame hholds

end Sys2Proof.Machine
end

section
/-! The queue family's proofs: S9 consumes OUTQ's head. -/

namespace Sys2Proof.Machine

open Sys2Proof

theorem popOut_of_cons {s : State} {pkt : Packet} {rest : List Packet} (h : s.outq = pkt :: rest) :
    popOut s = some (pkt, { s with outq := rest }) := by
  rw [popOut, h]

/-- Settles O33: at its position, S9 takes the head that `popOut` gives and logs its WRITE. -/
theorem sendStepWritesTheHead : Obligations.SendStepWritesTheHead := by
  intro s pkt rest hk hq
  calc exec .s9Write s
    _ = execS9Write s := rfl
    _ = .next (goto 10#4 (logRadio (.write pkt) { s with outq := rest })) := by
      rw [execS9Write, atStep_at hk, popOut_of_cons hq]
    _ = .next { s with outq := rest, engStep := 10#4, rtrace := s.rtrace ++ [.write pkt] } := rfl

end Sys2Proof.Machine
end

section
/-! The event handler family's proofs, the engine's steps: the state each leaves at its position, given
what the radio answers. -/

namespace Sys2Proof.Machine

open Sys2Proof Config

/-! ### What the radio answers -/

theorem askFlags_eq (s : State) : ∃ (f : BitVec 3) (a : List Answer) (d : Nat),
    askFlags s = (f, { s with rtrace := s.rtrace ++ [.clearStatus], answers := a, draws := d }) :=
  draw_eq flagsKind radioFlags (logRadio .clearStatus s)

theorem askCount_eq (s : State) : ∃ (n : BitVec 8) (a : List Answer) (d : Nat),
    askCount s = (n, { s with rtrace := s.rtrace ++ [.rxPending], answers := a, draws := d }) :=
  draw_eq countKind radioCount (logRadio .rxPending s)

theorem askPacket_eq (s : State) :
    ∃ (n : BitVec 6) (b : Vector Byte 32) (a : List Answer) (d : Nat), askPacket s =
      ((n, b), { s with rtrace := s.rtrace ++ [.read], answers := a, draws := d }) := by
  obtain ⟨⟨n, b⟩, a, d, he⟩ := draw_eq packetKind radioPacket (logRadio .read s)
  exact ⟨n, b, a, d, he⟩

theorem askChannel_eq (s : State) : ∃ (free : Bool) (a : List Answer) (d : Nat), askChannel s =
    (free, { s with rtrace := s.rtrace ++ [.channelAvailable], answers := a, draws := d }) :=
  draw_eq availableKind radioAvailable (logRadio .channelAvailable s)

/-! ### S0 -/

theorem isLifecycle_eq_false_iff (c : Command) :
    isLifecycle c = false ↔ c ≠ .init ∧ c ≠ .enable ∧ c ≠ .reset ∧ c ≠ .close := by
  cases c <;> simp [isLifecycle]

theorem lifecyclePending_eq_false_iff (x : Port) :
    lifecyclePending x = false ↔ ∀ pc, x.pend = some pc → isLifecycle pc.op = false := by
  unfold lifecyclePending
  cases x.pend <;> simp

theorem runMayStart_iff (s : State) :
    runMayStart s = true ↔ s.evtPend = true ∧ s.life = .enabled ∧ s.engFault = false ∧
      ∀ x ∈ s.ports, lifecyclePending x = false := by
  simp [runMayStart, and_assoc]

theorem execS0Idle_start {s : State} (hk : s.engStep = 0#4) (hrun : runMayStart s = true) :
    execS0Idle s = .next (startRun s) := by
  rw [execS0Idle, atStep_at hk, if_pos hrun]

theorem execS0Idle_hold {s : State} (hk : s.engStep = 0#4) (hrun : runMayStart s = false) :
    execS0Idle s = .next s := by
  rw [execS0Idle, atStep_at hk, if_neg (Bool.eq_false_iff.mp hrun)]

/-- Settles O27: the condition is `runMayStart`, port by port and command by command. -/
theorem runStartsUnderItsCondition : Obligations.RunStartsUnderItsCondition := by
  intro s hk
  simp only [← isLifecycle_eq_false_iff, ← lifecyclePending_eq_false_iff, ← runMayStart_iff]
  exact ⟨execS0Idle_start hk, fun hrun => execS0Idle_hold hk (Bool.eq_false_iff.mpr hrun)⟩

/-! ### S1, S2 and S3 -/

theorem execS1Standby_eq {s : State} (hk : s.engStep = 1#4) :
    execS1Standby s = .next { s with engStep := 2#4, rtrace := s.rtrace ++ [.standby] } := by
  rw [execS1Standby, atStep_at hk]
  rfl

theorem execS2Clear_eq {s u : State} {f : BitVec 3} (hk : s.engStep = 2#4)
    (hask : askFlags s = (f, u)) :
    execS2Clear s = .next { u with flags := f, engStep := 3#4 } := by
  rw [execS2Clear, atStep_at hk, hask]
  rfl

theorem execS3Listen_eq {s : State} (hk : s.engStep = 3#4) :
    execS3Listen s = .next
      { s with engStep := if s.flags.getLsbD 0 then 4#4 else 6#4, rtrace := s.rtrace ++ [.listen] } := by
  rw [execS3Listen, atStep_at hk]
  rfl

/-- Settles O28, position by position. -/
theorem runOpensWithStandbyClearListen : Obligations.RunOpensWithStandbyClearListen := by
  refine fun s => ⟨execS1Standby_eq, fun hk => ?_, execS3Listen_eq⟩
  obtain ⟨f, a, d, hask⟩ := askFlags_eq s
  exact ⟨f, _, a, d, rfl, hask, execS2Clear_eq hk hask⟩

/-! ### S4 and S5 -/

theorem execS4Poll_eq {s u : State} {n : BitVec 8} (hk : s.engStep = 4#4)
    (hask : askCount s = (n, u)) :
    execS4Poll s = .next { u with engStep := if 0 < n.toNat then 5#4 else 6#4 } := by
  rw [execS4Poll, atStep_at hk, hask]
  rfl

/-- Settles O29: the count tested is the one drawn. -/
theorem drainLoopTestsTheCount : Obligations.DrainLoopTestsTheCount := by
  intro s hk
  obtain ⟨n, a, d, hask⟩ := askCount_eq s
  exact ⟨n, _, a, d, rfl, hask, execS4Poll_eq hk hask⟩

theorem execS5Read_eq {s u : State} {n : BitVec 6} {b : Vector Byte 32} (hk : s.engStep = 5#4)
    (hask : askPacket s = ((n, b), u)) : execS5Read s = .next (takePacket n b u) := by
  rw [execS5Read, atStep_at hk, hask]

theorem takePacket_oversize {n : BitVec 6} (b : Vector Byte 32) (s : State) (hn : 32 < n.toNat) :
    takePacket n b s = { s with engFault := true, woke := false, engStep := 0#4 } := by
  rw [takePacket, if_pos hn]
  rfl

theorem readPending_eq (x : Port) : readPending x = decide (x.pend.map (·.op) = some .read) := by
  unfold readPending
  cases x.pend <;> simp

theorem takePacket_room {n : BitVec 6} (b : Vector Byte 32) {s : State} (hn : n.toNat ≤ 32)
    (hroom : s.inq.length < s.params.qcap) :
    takePacket n b s =
      { s with inq := s.inq ++ [b.toList.take n.toNat], engStep := 4#4
               stats := { s.stats with rxc := satInc s.stats.rxc }
               woke := s.woke || s.ports.any fun x => decide (x.pend.map (·.op) = some .read) } := by
  rw [takePacket, if_neg (by omega), pushIn, if_pos hroom, ← funext readPending_eq]
  rfl

theorem takePacket_full {n : BitVec 6} (b : Vector Byte 32) {s : State} (hn : n.toNat ≤ 32)
    (hfull : s.params.qcap ≤ s.inq.length) :
    takePacket n b s =
      { s with engStep := 4#4, stats := { s.stats with rxl := satInc s.stats.rxl } } := by
  rw [takePacket, if_neg (by omega), pushIn_eq_none.mpr hfull]
  rfl

/-- Settles O30: `takePacket`'s outcomes, at the packet drawn. -/
theorem drainLoopQueuesOrDropsThePacket : Obligations.DrainLoopQueuesOrDropsThePacket := by
  intro s hk
  obtain ⟨n, b, a, d, hask⟩ := askPacket_eq s
  have hexec := execS5Read_eq hk hask
  exact ⟨n, b, _, a, d, rfl, hask,
    fun hn => hexec.trans (congrArg _ (takePacket_oversize b _ hn)),
    fun hn hroom => hexec.trans (congrArg _ (takePacket_room b hn hroom)),
    fun hn hfull => hexec.trans (congrArg _ (takePacket_full b hn hfull))⟩

/-! ### S6 and S7 -/

theorem execS6MaxRt_lost {s : State} (hk : s.engStep = 6#4) (hf : s.flags.getLsbD 1 = true) :
    execS6MaxRt s = .next
      { s with engStep := 7#4, rtrace := s.rtrace ++ [.flushTx]
               stats := { s.stats with txl := satInc s.stats.txl } } := by
  rw [execS6MaxRt, atStep_at hk, if_pos (show maxRt s = true from hf)]
  rfl

theorem execS6MaxRt_clear {s : State} (hk : s.engStep = 6#4) (hf : s.flags.getLsbD 1 = false) :
    execS6MaxRt s = .next { s with engStep := 7#4 } := by
  rw [execS6MaxRt, atStep_at hk, if_neg (show ¬maxRt s = true from Bool.eq_false_iff.mp hf)]
  rfl

theorem execS7TxDs_sent {s : State} (hk : s.engStep = 7#4) (hf : s.flags.getLsbD 2 = true) :
    execS7TxDs s = .next
      { s with engStep := 8#4, stats := { s.stats with txc := satInc s.stats.txc } } := by
  rw [execS7TxDs, atStep_at hk, if_pos (show txDs s = true from hf)]
  rfl

theorem execS7TxDs_clear {s : State} (hk : s.engStep = 7#4) (hf : s.flags.getLsbD 2 = false) :
    execS7TxDs s = .next { s with engStep := 8#4 } := by
  rw [execS7TxDs, atStep_at hk, if_neg (show ¬txDs s = true from Bool.eq_false_iff.mp hf)]
  rfl

/-- Settles O31, flag by flag. -/
theorem runRetiresTransmissions : Obligations.RunRetiresTransmissions :=
  fun _ => ⟨execS6MaxRt_lost, execS6MaxRt_clear, execS7TxDs_sent, execS7TxDs_clear⟩

/-! ### S8 and S10 -/

theorem execS8Chan_empty {s : State} (hk : s.engStep = 8#4) (hq : s.outq = []) :
    execS8Chan s = .next { s with engStep := 10#4 } := by
  rw [execS8Chan, atStep_at hk, if_neg (by simp [nonEmptyOut, hq])]
  rfl

theorem execS8Chan_waiting {s u : State} {free : Bool} (hk : s.engStep = 8#4) (hq : s.outq ≠ [])
    (hask : askChannel s = (free, u)) :
    execS8Chan s = .next
      (if free then { u with engStep := 9#4 }
       else { u with engStep := 10#4, stats := { u.stats with txp := satInc u.stats.txp } }) := by
  have hne : nonEmptyOut s = true := by simpa [nonEmptyOut, List.length_pos_iff] using hq
  rw [execS8Chan, atStep_at hk, if_pos hne, hask]
  rfl

/-- Settles O32: carrier sense is asked only with a packet waiting. -/
theorem carrierSenseSendsOrPostpones : Obligations.CarrierSenseSendsOrPostpones := by
  refine fun s hk => ⟨execS8Chan_empty hk, fun hq => ?_⟩
  obtain ⟨free, a, d, hask⟩ := askChannel_eq s
  exact ⟨free, _, a, d, rfl, hask, execS8Chan_waiting hk hq hask⟩

theorem execS10Yield_eq {s : State} (hk : s.engStep = 10#4) :
    execS10Yield s = .next
      { s with engStep := 0#4, woke := false
               etrace := if s.woke then s.etrace ++ [.yieldReq] else s.etrace } := by
  rw [execS10Yield, atStep_at hk]
  cases s.woke <;> rfl

/-- Settles O34: WOKE decides the one yield_req. -/
theorem runEndsWithOneYield : Obligations.RunEndsWithOneYield := fun _ => execS10Yield_eq

end Sys2Proof.Machine
end

section
/-! The event handler family's proofs, over every step: who counts, who latches an event, and when the
block is at rest. -/

namespace Sys2Proof.Machine

open Sys2Proof Config

/-! ### The saturating increment -/

theorem satInc_eq (c : Word) :
    satInc c = if c.toNat = 0xFFFFFFFF then c else BitVec.ofNat 32 (c.toNat + 1) := by
  by_cases hc : c = 0xFFFFFFFF#32
  · simp [satInc, hc]
  · have hne : c.toNat ≠ 0xFFFFFFFF := fun h => hc (BitVec.eq_of_toNat_eq h)
    rw [satInc, if_neg hc, if_neg hne]
    exact BitVec.eq_of_toNat_eq (by simp)

theorem satInc_toNat_of_lt {c : Word} (h : c.toNat + 1 < 2 ^ 32) :
    (satInc c).toNat = c.toNat + 1 := by
  rw [satInc_eq, if_neg (by omega), BitVec.toNat_ofNat, Nat.mod_eq_of_lt h]

theorem le_satInc (c : Word) : c.toNat ≤ (satInc c).toNat := by
  by_cases h : c.toNat + 1 < 2 ^ 32
  · rw [satInc_toNat_of_lt h]
    omega
  · rw [satInc_eq, if_pos (by omega)]

/-! ### Who counts -/

/-- What one step of the engine can make of the counters: at most one of them rises (R91). -/
inductive CountsOne (n : Stats) : Stats → Prop where
  | none : CountsOne n n
  /-- S7 (R99). -/
  | txc : CountsOne n { n with txc := satInc n.txc }
  /-- S6 (R98). -/
  | txl : CountsOne n { n with txl := satInc n.txl }
  /-- S8 (R100). -/
  | txp : CountsOne n { n with txp := satInc n.txp }
  /-- S5 with room in INQ (R97). -/
  | rxc : CountsOne n { n with rxc := satInc n.rxc }
  /-- S5 with INQ full (R97). -/
  | rxl : CountsOne n { n with rxl := satInc n.rxl }

theorem CountsOne.counter {n m : Stats} (h : CountsOne n m) :
    ∀ get ∈ [Stats.txc, Stats.txl, Stats.txp, Stats.rxc, Stats.rxl],
      get m = get n ∨ get m = satInc (get n) := by
  cases h <;> simp

theorem takePacket_counts (n : BitVec 6) (b : Vector Byte 32) (s : State) :
    CountsOne s.stats (takePacket n b s).stats := by
  by_cases hn : 32 < n.toNat
  · rw [takePacket_oversize b s hn]
    exact .none
  · by_cases hroom : s.inq.length < s.params.qcap
    · rw [takePacket_room b (by omega) hroom]
      exact .rxc
    · rw [takePacket_full b (by omega) (by omega)]
      exact .rxl

theorem engineTurn_counts {s t : State} (h : engineTurn s = .next t) :
    CountsOne s.stats t.stats := by
  obtain ⟨i, hi, he⟩ := engineTurn_next h
  cases i with
  | init | enable | send | read | reset | close | encode | decode | pktStd | pktExt => cases hi
  | s0Idle =>
    have hk := (Encoded.position.inj hi).symm
    cases hrun : runMayStart s with
    | true => cases (execS0Idle_start hk hrun).symm.trans he; exact .none
    | false => cases (execS0Idle_hold hk hrun).symm.trans he; exact .none
  | s1Standby =>
    cases (execS1Standby_eq (Encoded.position.inj hi).symm).symm.trans he
    exact .none
  | s2Clear =>
    obtain ⟨f, a, d, hask⟩ := askFlags_eq s
    cases (execS2Clear_eq (Encoded.position.inj hi).symm hask).symm.trans he
    exact .none
  | s3Listen =>
    cases (execS3Listen_eq (Encoded.position.inj hi).symm).symm.trans he
    exact .none
  | s4Poll =>
    obtain ⟨n, a, d, hask⟩ := askCount_eq s
    cases (execS4Poll_eq (Encoded.position.inj hi).symm hask).symm.trans he
    exact .none
  | s5Read =>
    obtain ⟨n, b, a, d, hask⟩ := askPacket_eq s
    cases (execS5Read_eq (Encoded.position.inj hi).symm hask).symm.trans he
    exact takePacket_counts n b { s with rtrace := s.rtrace ++ [.read], answers := a, draws := d }
  | s6MaxRt =>
    have hk := (Encoded.position.inj hi).symm
    cases hf : s.flags.getLsbD 1 with
    | true => cases (execS6MaxRt_lost hk hf).symm.trans he; exact .txl
    | false => cases (execS6MaxRt_clear hk hf).symm.trans he; exact .none
  | s7TxDs =>
    have hk := (Encoded.position.inj hi).symm
    cases hf : s.flags.getLsbD 2 with
    | true => cases (execS7TxDs_sent hk hf).symm.trans he; exact .txc
    | false => cases (execS7TxDs_clear hk hf).symm.trans he; exact .none
  | s8Chan =>
    have hk := (Encoded.position.inj hi).symm
    by_cases hq : s.outq = []
    · cases (execS8Chan_empty hk hq).symm.trans he
      exact .none
    · obtain ⟨free, a, d, hask⟩ := askChannel_eq s
      cases (execS8Chan_waiting hk hq hask).symm.trans he
      cases free with
      | true => exact .none
      | false => exact .txp
  | s9Write =>
    have hk := (Encoded.position.inj hi).symm
    cases hq : s.outq with
    | nil =>
      obtain ⟨-, -, hstop, -⟩ := stopsStandOutsideTheRules s
      cases (hstop hk hq).symm.trans he
    | cons pkt rest => cases (sendStepWritesTheHead s pkt rest hk hq).symm.trans he; exact .none
  | s10Yield =>
    cases (execS10Yield_eq (Encoded.position.inj hi).symm).symm.trans he
    exact .none

theorem CommandEffect.stats {c : Command} {s u : State} (h : CommandEffect c s u) :
    u.stats = s.stats := by
  cases h <;> rfl

/-- A step that is not RST counts nothing, or is the engine's. -/
theorem step_counts {s t : State} (h : step s = .next t) (hnr : (takeInput s).1 ≠ .rst) :
    t.stats = s.stats ∨ ((takeInput s).1 = .engine ∧ CountsOne s.stats t.stats) := by
  cases step_effect h with
  | quiet => exact .inl rfl
  | irq => exact .inl (by rw [raiseIrq_eq])
  | rst _ _ hi => exact absurd hi hnr
  | engine _ _ hi =>
    have hturn : engineTurn (takeInput s).2 = .next t := by rw [step_eq, hi] at h; exact h
    have hcount := engineTurn_counts hturn
    rw [takeInput_stats] at hcount
    exact .inr ⟨hi, hcount⟩
  | command _ _ _ _ _ _ _ heff => exact .inl heff.stats

/-- Settles O43: a step counts nothing, or is the engine's and counts one. -/
theorem countersOnlyRise : Obligations.CountersOnlyRise := by
  refine ⟨satInc_eq, fun s t h hnr get hget => ?_⟩
  rcases step_counts h hnr with hkept | ⟨hi, hcount⟩
  · rw [hkept]
    exact ⟨.inl rfl, le_rfl⟩
  · rcases hcount.counter get hget with he | he <;> rw [he]
    · exact ⟨.inl rfl, le_rfl⟩
    · exact ⟨.inr ⟨rfl, hi⟩, le_satInc _⟩

/-! ### Who latches an event -/

/-- Command `c` queues a packet in ENABLED, which is what latches an event (R19, R111). -/
structure QueuesInEnabled (c : Command) (s t : State) : Prop where
  send : c = .send
  enabled : s.life = .enabled
  grows : t.outq.length = s.outq.length + 1

theorem sendBody_latches {p : Nat} {snap : Operands} {s : State} (hs : s.evtPend = false)
    (ht : (sendBody p snap s).evtPend = true) : QueuesInEnabled .send s (sendBody p snap s) := by
  obtain ⟨x, -, he | ⟨-, pkt, -, -, he⟩⟩ := sendBody_cases p snap s
  · simp [he, hs] at ht
  · rw [he] at ht ⊢
    have hlife : s.life = .enabled := by simpa [hs] using ht
    exact ⟨rfl, hlife, by simp⟩

theorem initBody_evtPend (p : Nat) (snap : Operands) (s : State) :
    (initBody p snap s).evtPend = s.evtPend := by
  obtain ⟨x, -, ⟨-, he⟩ | ⟨-, a, d, he | he⟩⟩ := initBody_cases p snap s
  all_goals rw [he]; rfl

/-- ENABLE, RESET and CLOSE keep EVT_PEND or clear it (R110, R113, R115). -/
theorem lifecycleBody_evtPend {c : Command} (hc : c = .enable ∨ c = .reset ∨ c = .close) {p : Nat}
    {snap : Operands} {s : State} (ht : (runCommand c p snap s).evtPend = true) :
    s.evtPend = true := by
  obtain ⟨x, -, he | ⟨-, l, e, r, -, hkeeps, he⟩⟩ := lifecycleBody_cases c hc p snap s <;>
    rw [he] at ht
  · exact ht
  · exact (hkeeps ht).1

/-- A command that is neither SEND nor one of the lifecycle keeps EVT_PEND. -/
theorem CommandEffect.evtPend_eq {c : Command} {s u : State} (h : CommandEffect c s u)
    (hl : isLifecycle c = false) (hs : c ≠ .send) : u.evtPend = s.evtPend := by
  cases h with
  | kept | opened | escalated | popped => rfl
  | moved _ _ _ hc => simp [hl] at hc
  | queued _ _ hc => exact absurd hc hs

theorem runCommand_latches {c : Command} {p : Nat} {snap : Operands} {s : State}
    (hs : s.evtPend = false) (ht : (runCommand c p snap s).evtPend = true) :
    QueuesInEnabled c s (runCommand c p snap s) := by
  have hkept : (runCommand c p snap s).evtPend ≠ s.evtPend := by simp [hs, ht]
  have hcleared : s.evtPend ≠ true := by simp [hs]
  cases c with
  | init => exact absurd (initBody_evtPend p snap s) hkept
  | enable => exact absurd (lifecycleBody_evtPend (.inl rfl) ht) hcleared
  | reset => exact absurd (lifecycleBody_evtPend (.inr (.inl rfl)) ht) hcleared
  | close => exact absurd (lifecycleBody_evtPend (.inr (.inr rfl)) ht) hcleared
  | send => exact sendBody_latches hs ht
  | read | encode | decode =>
    obtain ⟨x, u, he, heff⟩ := runCommand_effect _ p snap s
    rw [he] at hkept
    exact absurd (heff.evtPend_eq rfl (by decide)) hkept

theorem issueCommand_latches {c : Command} {p : Nat} {s : State} (hs : s.evtPend = false)
    (ht : (issueCommand p c (runCommand c p) s).evtPend = true) :
    QueuesInEnabled c s (issueCommand p c (runCommand c p) s) := by
  rcases issueCommand_cases p c (runCommand c p) s with he | ⟨-, -, -, he⟩ | ⟨-, -, he⟩
  · simp [he, hs] at ht
  · simp [he, hs] at ht
  · rw [he] at ht ⊢
    exact runCommand_latches hs ht

theorem exec_instr_latches {c : Command} {p : Nat} {s t : State} (h : exec (c.instr p) s = .next t)
    (hs : s.evtPend = false) (ht : t.evtPend = true) : QueuesInEnabled c s t := by
  rw [exec_instr] at h
  obtain ⟨-, rfl⟩ := onPort_next h
  exact issueCommand_latches hs ht

theorem portTurn_latches {p : Nat} {s : State} (hs : s.evtPend = false)
    (ht : (portTurn p s).evtPend = true) :
    ∃ pc, (portOf s p).pend = some pc ∧ QueuesInEnabled pc.op s (portTurn p s) := by
  rcases portTurn_cases p s with he | ⟨pc, hpend, -, he⟩
  · simp [he, hs] at ht
  · rw [he] at ht ⊢
    obtain ⟨hsend, henabled, hgrows⟩ := runCommand_latches (s := clearPending p s) hs ht
    exact ⟨pc, hpend, hsend, henabled, hgrows⟩

/-- The engine clears EVT_PEND at S0 and never sets it. -/
theorem EngineEffect.evtPend {s t : State} (h : EngineEffect s t) (ht : t.evtPend = true) :
    s.evtPend = true := by
  cases h with
  | held | ran | faulted | queued | sent => exact ht
  | started => simp at ht

theorem decodeCommand_send {w : Word} (h : decodeCommand w = some .send) : w.toNat = 3 := by
  cases encode_of_decodeCommand h 0
  rfl

theorem step_irq {s : State} (hi : (takeInput s).1 = .irq) :
    step s = .next
      { (takeInput s).2 with evtPend := if s.life = .enabled then true else s.evtPend } := by
  rw [step_eq, hi, takeTurn, raiseIrq]
  by_cases hl : s.life = .enabled
  · rw [if_pos (by simpa using hl), if_pos hl]
  · rw [if_neg (by simpa using hl), if_neg hl, ← takeInput_evtPend s]

/-- Settles O42: of what a step can do, only `irq` and the run of a SEND set EVT_PEND. -/
theorem onlyIrqAndSendLatchAnEvent : Obligations.OnlyIrqAndSendLatchAnEvent := by
  refine fun s t => ⟨step_irq, fun h hs ht => ?_⟩
  have hset : s.evtPend ≠ true := by simp [hs]
  obtain ⟨l, d, s', -, rfl, hc⟩ := step_next h
  rcases hc with ⟨r, -, rfl⟩ | ⟨_, _, v, off, -, rfl⟩ | ⟨_, _, v, p, off, -, -, rfl⟩ |
    ⟨v, p, -, -, -, rfl⟩ | ⟨v, p, c, hi, -, hw, he⟩ | ⟨hi, rfl⟩ | ⟨-, rfl⟩ | ⟨-, he⟩ |
    ⟨p, hi, rfl⟩ | ⟨a, -, rfl⟩
  · exact absurd ht hset
  · exact absurd ht hset
  · exact absurd ht hset
  · obtain ⟨x, hx⟩ := illegalCommand_ports p { s with inputs := l, draws := d, bus := .done }
    rw [hx] at ht
    exact absurd ht hset
  · obtain ⟨rfl, henabled, hgrows⟩ := exec_instr_latches he hs ht
    exact ⟨henabled, .inr ⟨hgrows, .inl ⟨p, v, decodeCommand_send hw, hi⟩⟩⟩
  · refine ⟨?_, .inl hi⟩
    simpa [raiseIrq_eq, hs] using ht
  · cases ht
  · exact absurd ((engineTurn_effect he).evtPend ht) hset
  · obtain ⟨pc, hpend, hsend, henabled, hgrows⟩ :=
      portTurn_latches (s := { s with inputs := l, draws := d }) hs ht
    have hp : s.ports[p]? = some (portOf s p) := getElem?_of_pend hpend
    exact ⟨henabled, .inr ⟨hgrows, .inr ⟨p, portOf s p, pc, hi, hp, hpend, hsend⟩⟩⟩
  · exact absurd ht hset

/-! ### Quiescence -/

/-- With the engine idle, a pending command waits only if it is a READ and INQ is empty (R106). -/
theorem waits_idle_iff {s : State} (hidle : busy s = false) (c : Command) :
    waits c s = true ↔ c = .read ∧ s.inq = [] := by
  cases c <;> simp [waits, hidle]

theorem portEnabled_eq_false_iff (s : State) (p : Nat) :
    portEnabled s p = false ↔ ∀ pc, (portOf s p).pend = some pc → waits pc.op s = true := by
  unfold portEnabled
  cases (portOf s p).pend <;> simp

/-- No port has an enabled step exactly when every pending command waits (R107). -/
theorem no_portEnabled_iff (s : State) :
    (∀ p, portEnabled s p = false) ↔
      ∀ x ∈ s.ports, ∀ pc, x.pend = some pc → waits pc.op s = true := by
  simp only [portEnabled_eq_false_iff]
  constructor
  · intro h x hx pc hpc
    obtain ⟨p, hp⟩ := List.getElem?_of_mem hx
    rw [← portOf_of_getElem? hp] at hpc
    exact h p pc hpc
  · intro h p pc hpc
    exact h _ (List.mem_of_getElem? (getElem?_of_pend hpc)) pc hpc

/-- R152's four conditions, the last one as the waiting of every pending command. -/
theorem quiescent_iff (s : State) :
    quiescent s = true ↔ busy s = false ∧
      (s.evtPend = true → s.life = .enabled → s.engFault = true) ∧
      (∀ x ∈ s.ports, lifecyclePending x = false) ∧
      ∀ x ∈ s.ports, ∀ pc, x.pend = some pc → pc.op = .read ∧ s.inq = [] := by
  simp only [quiescent, Bool.and_eq_true, List.all_eq_true, and_assoc]
  refine and_congr (by simp) (and_congr ?_ (and_congr (by simp) ?_))
  · cases s.evtPend <;> cases s.engFault <;> simp
  · refine forall₂_congr fun x _ => ?_
    cases x.pend <;> simp

theorem quiescent_iff_nothing_enabled (s : State) :
    quiescent s = true ↔ engineEnabled s = false ∧ ∀ p, portEnabled s p = false := by
  rw [quiescent_iff, no_portEnabled_iff, engineEnabled, Bool.or_eq_false_iff]
  constructor
  · rintro ⟨hidle, hevent, -, hwaits⟩
    refine ⟨⟨hidle, ?_⟩, fun x hx pc hpc => (waits_idle_iff hidle _).mpr (hwaits x hx pc hpc)⟩
    rw [Bool.eq_false_iff, ne_eq, runMayStart_iff]
    rintro ⟨he, hl, hf, -⟩
    simp [hevent he hl] at hf
  · rintro ⟨⟨hidle, hrun⟩, hwaits⟩
    have hread := fun x hx pc hpc => (waits_idle_iff hidle _).mp (hwaits x hx pc hpc)
    have hlife : ∀ x ∈ s.ports, lifecyclePending x = false := by
      intro x hx
      refine (lifecyclePending_eq_false_iff x).mpr fun pc hpc => ?_
      rw [(hread x hx pc hpc).1]
      rfl
    refine ⟨hidle, fun he hl => ?_, hlife, hread⟩
    by_contra hf
    exact Bool.eq_false_iff.mp hrun ((runMayStart_iff s).mpr ⟨he, hl, by simpa using hf, hlife⟩)

theorem engineTurn_of_not_enabled {s : State} (h : engineEnabled s = false) :
    engineTurn s = .next s := by
  obtain ⟨hidle, hrun⟩ := Bool.or_eq_false_iff.mp h
  have hk : s.engStep = 0#4 := by simpa [busy] using hidle
  rw [engineTurn_eq (i := .s0Idle) (by rw [hk]; rfl)]
  exact execS0Idle_hold hk hrun

theorem portTurn_of_not_enabled {s : State} {p : Nat} (h : portEnabled s p = false) :
    portTurn p s = s := by
  rcases portTurn_cases p s with he | ⟨pc, hpend, hw, -⟩
  · exact he
  · simp [(portEnabled_eq_false_iff s p).mp h pc hpend] at hw

/-- Settles O59: an agent without an enabled step holds. -/
theorem quiescentMeansNothingEnabled : Obligations.QuiescentMeansNothingEnabled := by
  refine fun s => ⟨quiescent_iff_nothing_enabled s, fun hq => ?_⟩
  obtain ⟨hengine, hports⟩ := (quiescent_iff_nothing_enabled s).mp hq
  exact ⟨engineTurn_of_not_enabled hengine, fun p => portTurn_of_not_enabled (hports p)⟩

end Sys2Proof.Machine
end

section
/-! The event handler family's proofs, whole runs: a run of the engine with its answers settled, phase by
phase, and rounds of interrupt and run. -/

namespace Sys2Proof.Machine

open Sys2Proof Config

/-! ### Settled answers -/

theorem askFlags_settled {s : State} {f : BitVec 3} {rest : List Answer}
    (h : s.answers = .flags f :: rest) :
    askFlags s = (f, { s with rtrace := s.rtrace ++ [.clearStatus], answers := rest }) :=
  draw_settled (s := logRadio .clearStatus s) radioFlags h rfl

theorem askCount_settled {s : State} {n : BitVec 8} {rest : List Answer}
    (h : s.answers = .count n :: rest) :
    askCount s = (n, { s with rtrace := s.rtrace ++ [.rxPending], answers := rest }) :=
  draw_settled (s := logRadio .rxPending s) radioCount h rfl

theorem askPacket_settled {s : State} {n : BitVec 6} {b : Vector Byte 32} {rest : List Answer}
    (h : s.answers = .packet n b :: rest) :
    askPacket s = ((n, b), { s with rtrace := s.rtrace ++ [.read], answers := rest }) :=
  draw_settled (s := logRadio .read s) radioPacket h rfl

theorem askChannel_settled {s : State} {free : Bool} {rest : List Answer}
    (h : s.answers = .available free :: rest) :
    askChannel s = (free, { s with rtrace := s.rtrace ++ [.channelAvailable], answers := rest }) :=
  draw_settled (s := logRadio .channelAvailable s) radioAvailable h rfl

/-! ### Steps inside a run -/

/-- At most `n` steps of the engine alone lead from `s` to `t`, and none of them ends the run;
`EngineRuns.runToIdle` ties it to `runToIdle`. -/
inductive EngineRuns : Nat → State → State → Prop where
  | refl (n : Nat) (s : State) : EngineRuns n s s
  | step {n : Nat} {s u t : State} (h : engineTurn s = .next u) (hbusy : u.engStep ≠ 0#4)
      (hr : EngineRuns n u t) : EngineRuns (n + 1) s t

theorem EngineRuns.mono {m n : Nat} {s t : State} (h : EngineRuns m s t) (hmn : m ≤ n) :
    EngineRuns n s t := by
  induction h generalizing n with
  | refl => exact .refl n _
  | step h hbusy _ ih =>
    obtain ⟨n, rfl⟩ := Nat.exists_eq_add_of_le' (Nat.one_le_of_lt hmn)
    exact .step h hbusy (ih (by omega))

theorem EngineRuns.trans {m n : Nat} {s u t : State} (h : EngineRuns m s u)
    (h' : EngineRuns n u t) : EngineRuns (m + n) s t := by
  induction h with
  | refl => exact h'.mono (by omega)
  | step h hbusy _ ih => exact (EngineRuns.step h hbusy (ih h')).mono (by omega)

/-- The instruction at ENG_STEP is the run's next step. -/
theorem EngineRuns.andThen {n : Nat} {s u t : State} (h : EngineRuns n s u) (i : Instr)
    (hi : encode i = .position u.engStep) (he : exec i u = .next t) (hbusy : t.engStep ≠ 0#4) :
    EngineRuns (n + 1) s t :=
  h.trans (.step ((engineTurn_eq hi).trans he) hbusy (.refl 0 t))

theorem runToIdle_succ {s t : State} (h : engineTurn s = .next t) (fuel : Nat) :
    runToIdle (fuel + 1) s = if t.engStep = 0#4 then some t else runToIdle fuel t := by
  rw [runToIdle, h]

/-- With fuel for the steps inside it and for its last one, a run ends. -/
theorem EngineRuns.runToIdle {n fuel : Nat} {s u t : State} (h : EngineRuns n s u)
    (hend : engineTurn u = .next t) (hidle : t.engStep = 0#4) (hfuel : n < fuel) :
    runToIdle fuel s = some t := by
  induction h generalizing fuel with
  | refl n u =>
    obtain ⟨fuel, rfl⟩ := Nat.exists_eq_add_of_le' (Nat.one_le_of_lt hfuel)
    rw [runToIdle_succ hend, if_pos hidle]
  | step h hbusy _ ih =>
    obtain ⟨fuel, rfl⟩ := Nat.exists_eq_add_of_le' (Nat.one_le_of_lt hfuel)
    rw [runToIdle_succ h, if_neg hbusy]
    exact ih hend (by omega)

/-! ### The phases of a run

Each takes a run up to its first position and gives it up to the position after it. -/

/-- S1 to S3 (R93 to R95). -/
theorem EngineRuns.opening {n : Nat} {s u : State} (h : EngineRuns n s u) {f : BitVec 3}
    {rest : List Answer} (hk : u.engStep = 1#4) (ha : u.answers = .flags f :: rest) :
    EngineRuns (n + 3) s
      { u with engStep := if f.getLsbD 0 then 4#4 else 6#4, flags := f, answers := rest
               rtrace := u.rtrace ++ [.standby, .clearStatus, .listen] } := by
  have h1 := h.andThen .s1Standby (by rw [hk]; rfl) (execS1Standby_eq hk) (by simp)
  have h2 := h1.andThen .s2Clear rfl (execS2Clear_eq rfl (askFlags_settled ha)) (by simp)
  have h3 := h2.andThen .s3Listen rfl (execS3Listen_eq rfl) (by dsimp only; split <;> simp)
  simpa using h3

/-- A packet within MAXPAY leaves S5 for S4, with room in INQ or not (R97). -/
theorem takePacket_fits {n : BitVec 6} (b : Vector Byte 32) (s : State) (hn : n.toNat ≤ 32) :
    ∃ (q : List Packet) (w : Bool) (m : Stats),
      takePacket n b s = { s with engStep := 4#4, inq := q, woke := w, stats := m } ∧
      m.txp = s.stats.txp := by
  by_cases hroom : s.inq.length < s.params.qcap
  · exact ⟨_, _, _, takePacket_room b hn hroom, rfl⟩
  · exact ⟨_, _, _, takePacket_full b hn (Nat.le_of_not_lt hroom), rfl⟩

/-- S4 and S5 once, for one packet (R96, R97). -/
theorem EngineRuns.drainOne {n : Nat} {s u : State} (h : EngineRuns n s u)
    {p : BitVec 6 × Vector Byte 32} {rest : List Answer} (hk : u.engStep = 4#4)
    (hp : p.1.toNat ≤ 32) (ha : u.answers = .count 1 :: .packet p.1 p.2 :: rest) :
    ∃ (q : List Packet) (w : Bool) (m : Stats), m.txp = u.stats.txp ∧
      EngineRuns (n + 2) s
        { u with engStep := 4#4, answers := rest, rtrace := u.rtrace ++ [.rxPending, .read]
                 inq := q, woke := w, stats := m } := by
  have h4 := h.andThen .s4Poll (by rw [hk]; rfl) (execS4Poll_eq hk (askCount_settled ha)) (by simp)
  have hread := execS5Read_eq (s := { u with
    engStep := 5#4, answers := .packet p.1 p.2 :: rest, rtrace := u.rtrace ++ [.rxPending] })
    rfl (askPacket_settled rfl)
  obtain ⟨q, w, m, htake, hm⟩ := takePacket_fits p.2 { u with
    engStep := 5#4, answers := rest, rtrace := u.rtrace ++ [.rxPending] ++ [.read] } hp
  have h5 := h4.andThen .s5Read rfl (hread.trans (congrArg _ htake)) (by simp)
  exact ⟨q, w, m, hm, by simpa using h5⟩

/-- S4 and S5, for a drain of any length (R96, R97). -/
theorem EngineRuns.drain (ps : List (BitVec 6 × Vector Byte 32)) :
    ∀ {n : Nat} {s u : State} {rest : List Answer}, EngineRuns n s u → u.engStep = 4#4 →
      (∀ p ∈ ps, p.1.toNat ≤ 32) → u.answers = drainAnswers ps ++ rest →
      ∃ (q : List Packet) (w : Bool) (m : Stats), m.txp = u.stats.txp ∧
        EngineRuns (n + (2 * ps.length + 1)) s
          { u with engStep := 6#4, answers := rest, rtrace := u.rtrace ++ drainRequests ps.length
                   inq := q, woke := w, stats := m } := by
  induction ps with
  | nil =>
    intro n s u rest h hk _ ha
    exact ⟨u.inq, u.woke, u.stats, rfl, h.andThen .s4Poll (by rw [hk]; rfl)
      (execS4Poll_eq hk (askCount_settled ha)) (by simp)⟩
  | cons p ps ih =>
    intro n s u rest h hk hsizes ha
    obtain ⟨hp, hps⟩ := List.forall_mem_cons.mp hsizes
    obtain ⟨q, w, m, hm, hone⟩ := h.drainOne hk hp ha
    obtain ⟨q', w', m', hm', hdrain⟩ := ih hone rfl hps rfl
    refine ⟨q', w', m', hm'.trans hm, ?_⟩
    have hall := hdrain.mono
      (show _ ≤ n + (2 * (p :: ps).length + 1) by rw [List.length_cons]; omega)
    simpa [drainRequests] using hall

/-- S1 to S5 with the drain that FLAGS asks for (R103). -/
theorem EngineRuns.reception {n : Nat} {s u : State} (h : EngineRuns n s u) {f : BitVec 3}
    {ps : List (BitVec 6 × Vector Byte 32)} {rest : List Answer} (hk : u.engStep = 1#4)
    (hsizes : ∀ p ∈ ps, p.1.toNat ≤ 32)
    (ha : u.answers = .flags f :: ((if f.getLsbD 0 then drainAnswers ps else []) ++ rest)) :
    ∃ (q : List Packet) (w : Bool) (m : Stats), m.txp = u.stats.txp ∧
      EngineRuns (n + (2 * ps.length + 4)) s
        { u with engStep := 6#4, flags := f, answers := rest, inq := q, woke := w, stats := m
                 rtrace := u.rtrace ++ [.standby, .clearStatus, .listen] ++
                   (if f.getLsbD 0 then drainRequests ps.length else []) } := by
  have hopen := h.opening hk ha
  cases hf : f.getLsbD 0 with
  | true =>
    simp only [hf, if_true] at hopen ⊢
    obtain ⟨q, w, m, hm, hdrain⟩ := hopen.drain ps rfl hsizes rfl
    exact ⟨q, w, m, hm, hdrain.mono (by omega)⟩
  | false =>
    simp only [hf, Bool.false_eq_true, if_false, List.nil_append, List.append_nil] at hopen ⊢
    exact ⟨u.inq, u.woke, u.stats, rfl, hopen.mono (by omega)⟩

/-- S6 (R98). -/
theorem EngineRuns.maxRt {n : Nat} {s u : State} (h : EngineRuns n s u) (hk : u.engStep = 6#4) :
    ∃ m : Stats, m.txp = u.stats.txp ∧
      EngineRuns (n + 1) s
        { u with engStep := 7#4, stats := m
                 rtrace := u.rtrace ++ (if u.flags.getLsbD 1 then [.flushTx] else []) } := by
  have hi : encode .s6MaxRt = .position u.engStep := by rw [hk]; rfl
  cases hf : u.flags.getLsbD 1 with
  | true =>
    exact ⟨{ u.stats with txl := satInc u.stats.txl }, rfl,
      h.andThen .s6MaxRt hi (execS6MaxRt_lost hk hf) (by simp)⟩
  | false =>
    have hrun := h.andThen .s6MaxRt hi (execS6MaxRt_clear hk hf) (by simp)
    exact ⟨u.stats, rfl, by simpa using hrun⟩

/-- S7 (R99). -/
theorem EngineRuns.txDs {n : Nat} {s u : State} (h : EngineRuns n s u) (hk : u.engStep = 7#4) :
    ∃ m : Stats, m.txp = u.stats.txp ∧
      EngineRuns (n + 1) s { u with engStep := 8#4, stats := m } := by
  have hi : encode .s7TxDs = .position u.engStep := by rw [hk]; rfl
  cases hf : u.flags.getLsbD 2 with
  | true =>
    exact ⟨{ u.stats with txc := satInc u.stats.txc }, rfl,
      h.andThen .s7TxDs hi (execS7TxDs_sent hk hf) (by simp)⟩
  | false => exact ⟨u.stats, rfl, h.andThen .s7TxDs hi (execS7TxDs_clear hk hf) (by simp)⟩

/-- The requests of S8 and S9 (R103). -/
def sendRequests (free : Bool) (outq : List Packet) : List RadioRequest :=
  if outq = [] then []
  else .channelAvailable :: (if free then (outq.take 1).map .write else [])

/-- S8 and S9: with a packet waiting, carrier sense and, on a free channel, the packet's WRITE (R100,
R101). -/
theorem EngineRuns.transmission {n : Nat} {s u : State} (h : EngineRuns n s u) {free : Bool}
    {rest : List Answer} (hk : u.engStep = 8#4)
    (ha : u.answers = (if u.outq = [] then [] else [.available free]) ++ rest) :
    ∃ m : Stats, m.txp = (if u.outq = [] ∨ free = true then u.stats.txp else satInc u.stats.txp) ∧
      EngineRuns (n + 2) s
        { u with engStep := 10#4, answers := rest, stats := m
                 outq := if free then u.outq.tail else u.outq
                 rtrace := u.rtrace ++ sendRequests free u.outq } := by
  have hi : encode .s8Chan = .position u.engStep := by rw [hk]; rfl
  cases hq : u.outq with
  | nil =>
    have hrest : u.answers = rest := by simpa [hq] using ha
    have hrun := h.andThen .s8Chan hi (execS8Chan_empty hk hq) (by simp)
    refine ⟨u.stats, by simp, ?_⟩
    simpa [sendRequests, ← hrest, hq] using hrun.mono (by omega : n + 1 ≤ n + 2)
  | cons pkt queue =>
    have hne : u.outq ≠ [] := by simp [hq]
    have hexec := execS8Chan_waiting hk hne (askChannel_settled (by simpa [hne] using ha))
    cases free with
    | false =>
      have hrun := h.andThen .s8Chan hi hexec (by simp)
      refine ⟨{ u.stats with txp := satInc u.stats.txp }, by simp, ?_⟩
      simpa [sendRequests, hq] using hrun.mono (by omega : n + 1 ≤ n + 2)
    | true =>
      have hsense := h.andThen .s8Chan hi hexec (by simp)
      have hwrite := hsense.andThen .s9Write rfl
        (sendStepWritesTheHead _ pkt queue rfl hq) (by simp)
      refine ⟨u.stats, by simp, ?_⟩
      simpa [sendRequests] using hwrite

/-! ### A whole run -/

/-- S10 ends the run (R102). -/
theorem EngineRuns.ends {n fuel : Nat} {s u : State} (h : EngineRuns n s u)
    (hk : u.engStep = 10#4) (hfuel : n < fuel) :
    Machine.runToIdle fuel s = some
      { u with engStep := 0#4, woke := false
               etrace := if u.woke then u.etrace ++ [.yieldReq] else u.etrace } :=
  h.runToIdle ((engineTurn_eq (i := .s10Yield) (by rw [hk]; rfl)).trans (execS10Yield_eq hk)) rfl
    hfuel

/-- A run with its answers settled ends with OUTQ, the requests and STAT_TXP given exactly; INQ, the
other counters and ETRACE depend on the room in INQ and on who waits. -/
theorem run_settled {s : State} {f : BitVec 3} {ps : List (BitVec 6 × Vector Byte 32)} {free : Bool}
    {rest : List Answer} {fuel : Nat} (hk : s.engStep = 1#4) (hsizes : ∀ p ∈ ps, p.1.toNat ≤ 32)
    (ha : s.answers = .flags f :: ((if f.getLsbD 0 then drainAnswers ps else []) ++
      ((if s.outq = [] then [] else [.available free]) ++ rest)))
    (hfuel : 2 * ps.length + 10 ≤ fuel) :
    ∃ (q : List Packet) (m : Stats) (e : List OutEvent),
      m.txp = (if s.outq = [] ∨ free = true then s.stats.txp else satInc s.stats.txp) ∧
      runToIdle fuel s = some
        { s with engStep := 0#4, flags := f, woke := false, answers := rest, inq := q, stats := m
                 outq := if free then s.outq.tail else s.outq, etrace := e
                 rtrace := s.rtrace ++ [.standby, .clearStatus, .listen] ++
                   (if f.getLsbD 0 then drainRequests ps.length else []) ++
                   (if f.getLsbD 1 then [.flushTx] else []) ++ sendRequests free s.outq } := by
  obtain ⟨q, w, m₁, hm₁, hreceive⟩ := (EngineRuns.refl 0 s).reception hk hsizes ha
  obtain ⟨m₂, hm₂, hlost⟩ := hreceive.maxRt rfl
  obtain ⟨m₃, hm₃, hsent⟩ := hlost.txDs rfl
  obtain ⟨m, hm, htransmit⟩ := hsent.transmission (free := free) (rest := rest) rfl rfl
  refine ⟨q, m, _, ?_, htransmit.ends rfl (by omega)⟩
  simpa [hm₁, hm₂, hm₃] using hm

/-- Settles O38: the run that `run_settled` gives, read field by field. -/
theorem wholeRunIssuesItsRequestsInOrder : Obligations.WholeRunIssuesItsRequestsInOrder := by
  intro s f ps free rest fuel hk hsizes ha hfuel
  obtain ⟨q, m, e, -, hrun⟩ := run_settled hk hsizes (by simpa using ha) hfuel
  exact ⟨_, hrun, rfl, rfl, rfl, rfl⟩

/-! ### Rounds of interrupt and run -/

theorem satIncTimes_toNat {k : Nat} {c : Word} (h : c.toNat + k < 2 ^ 32) :
    (satIncTimes k c).toNat = c.toNat + k := by
  induction k generalizing c with
  | zero => rfl
  | succ k ih =>
    have hinc := satInc_toNat_of_lt (c := c) (by omega)
    rw [satIncTimes, ih (by omega), hinc]
    omega

/-- An idle block that starts a run as soon as an event is latched (R92). -/
structure AwaitsEvent (s : State) : Prop where
  idle : s.engStep = 0#4
  enabled : s.life = .enabled
  noFault : s.engFault = false
  ports : ∀ x ∈ s.ports, lifecyclePending x = false

/-- An `irq` has the block start a run (R89, R92). -/
theorem AwaitsEvent.runToIdle_raiseIrq {s : State} (h : AwaitsEvent s) (fuel : Nat) :
    runToIdle (fuel + 1) (raiseIrq s) = runToIdle fuel (startRun (raiseIrq s)) := by
  have hirq : raiseIrq s = { s with evtPend := true } := by rw [raiseIrq, if_pos h.enabled]
  have hrun : runMayStart (raiseIrq s) = true := by
    rw [hirq]
    exact (runMayStart_iff _).mpr ⟨rfl, h.enabled, h.noFault, h.ports⟩
  have hk : (raiseIrq s).engStep = 0#4 := by rw [hirq]; exact h.idle
  have hturn : engineTurn (raiseIrq s) = .next (startRun (raiseIrq s)) :=
    (engineTurn_eq (i := .s0Idle) (by rw [hk]; rfl)).trans (execS0Idle_start hk hrun)
  rw [runToIdle_succ hturn, if_neg (by simp)]

/-- One busy round: the run postpones the packet, counts it, and leaves the block as ready (R104). -/
theorem AwaitsEvent.busyRound {s : State} (h : AwaitsEvent s) {f : BitVec 3}
    {ps : List (BitVec 6 × Vector Byte 32)} {rest : List Answer} {fuel : Nat} (hq : s.outq ≠ [])
    (hsizes : ∀ p ∈ ps, p.1.toNat ≤ 32) (hfuel : 2 * ps.length + 11 ≤ fuel)
    (ha : s.answers = busyRoundAnswers f ps ++ rest) :
    ∃ t, runToIdle fuel (raiseIrq s) = some t ∧ AwaitsEvent t ∧ t.outq = s.outq ∧
      t.answers = rest ∧ t.stats.txp = satInc s.stats.txp := by
  obtain ⟨fuel, rfl⟩ := Nat.exists_eq_add_of_le' (show 1 ≤ fuel by omega)
  rw [h.runToIdle_raiseIrq, raiseIrq_eq]
  obtain ⟨q, m, e, hm, hrun⟩ := run_settled (s := startRun
      { s with evtPend := s.evtPend || decide (s.life = .enabled) }) (free := false) (rest := rest)
    rfl hsizes (by simpa [hq, busyRoundAnswers] using ha) (Nat.le_of_succ_le_succ hfuel)
  refine ⟨_, hrun, ⟨rfl, h.enabled, h.noFault, h.ports⟩, rfl, rfl, ?_⟩
  simpa [hq] using hm

/-- As many busy rounds as answers are settled for. -/
theorem AwaitsEvent.busyRounds (rounds : List (BitVec 3 × List (BitVec 6 × Vector Byte 32))) :
    ∀ {s : State} {rest : List Answer} {fuel : Nat}, AwaitsEvent s → s.outq ≠ [] →
      (∀ r ∈ rounds, (∀ p ∈ r.2, p.1.toNat ≤ 32) ∧ 2 * r.2.length + 11 ≤ fuel) →
      s.answers = (rounds.map fun r => busyRoundAnswers r.1 r.2).flatten ++ rest →
      ∃ t, interruptCycles fuel rounds.length s = some t ∧ t.outq = s.outq ∧
        t.stats.txp = satIncTimes rounds.length s.stats.txp := by
  induction rounds with
  | nil => exact fun _ _ _ _ => ⟨_, rfl, rfl, rfl⟩
  | cons r rounds ih =>
    intro s rest fuel h hq hrounds ha
    obtain ⟨⟨hsizes, hfuel⟩, hrounds⟩ := List.forall_mem_cons.mp hrounds
    obtain ⟨t, hrun, ht, hout, hans, htxp⟩ := h.busyRound hq hsizes hfuel
      (by simpa only [List.map_cons, List.flatten_cons, List.append_assoc] using ha)
    obtain ⟨u, hcycles, hout', htxp'⟩ := ih ht (hout ▸ hq) hrounds hans
    refine ⟨u, ?_, hout'.trans hout, ?_⟩
    · rw [List.length_cons, interruptCycles, hrun]
      exact hcycles
    · rw [htxp', htxp]
      rfl

/-- Settles O39: the rounds one after another, and K saturating increments add K below the bound. -/
theorem postponementKeepsThePacket : Obligations.PostponementKeepsThePacket := by
  intro rounds s pkt queue rest fuel hk hlife hfault hports hq hrounds ha
  have hready : AwaitsEvent s := ⟨hk, hlife, hfault, hports⟩
  obtain ⟨t, hcycles, hout, htxp⟩ :=
    AwaitsEvent.busyRounds rounds hready (by simp [hq]) hrounds ha
  exact ⟨t, hcycles, hout.trans hq, htxp, fun hlt => htxp ▸ satIncTimes_toNat hlt⟩

end Sys2Proof.Machine
end

section
/-! The command family's proofs, issue and legality: a CMD write while a command is pending, the
legality table, and a pending command that no longer waits. -/

namespace Sys2Proof.Machine

open Sys2Proof Config

/-! ### The legality table -/

theorem legal_init_iff (l : Life) : legal .init l = true ↔ l = .off := by
  cases l <;> simp [legal]

theorem legal_live_iff {c : Command}
    (hc : c = .enable ∨ c = .send ∨ c = .read ∨ c = .reset ∨ c = .close) (l : Life) :
    legal c l = true ↔ l = .ready ∨ l = .enabled := by
  rcases hc with rfl | rfl | rfl | rfl | rfl <;>
    exact legal_not_init (by decide) (by decide) (by decide)

/-- The table of R108, cell by cell. -/
theorem legal_iff (c : Command) (l : Life) : legal c l = true ↔
    (c = .init ∧ l = .off) ∨
    ((c = .enable ∨ c = .send ∨ c = .read ∨ c = .reset ∨ c = .close) ∧
      (l = .ready ∨ l = .enabled)) ∨
    (c = .encode ∨ c = .decode) := by
  cases c with
  | init => simp [legal_init_iff]
  | enable | send | read | reset | close =>
    simp [legal_live_iff]
  | encode | decode => simp [legal]

/-- The body of a command that is not legal writes ERR_STATE and has no other effect (R108). -/
theorem runCommand_not_legal {c : Command} {s : State} (h : legal c s.life = false) (p : Nat)
    (snap : Operands) : runCommand c p snap s = setResult p .errState s := by
  have hneg : ¬legal c s.life = true := Bool.eq_false_iff.mp h
  cases c with
  | init | enable | send | read | reset | close => exact if_neg hneg
  | encode | decode => simp [legal] at h

section OnPort

variable {s : State} {p : Nat} {x : Port}

/-- A command that is not legal never waits: it is refused at once (R106, R108). -/
theorem exec_not_legal {c : Command} (hx : s.ports[p]? = some x) (hn : x.pend = none)
    (h : legal c s.life = false) :
    exec (c.instr p) s = .next { s with ports := s.ports.set p { x with result := 0x02 } } := by
  rw [exec_instr_run hx hn (by rw [h, Bool.false_and]), runCommand_not_legal h, setResult_eq _ hx]
  rfl

/-- In OFF and in FATAL every command is refused but INIT, ENCODE and DECODE (R108). -/
theorem exec_off_or_fatal {c : Command}
    (hc : c = .enable ∨ c = .send ∨ c = .read ∨ c = .reset ∨ c = .close)
    (hx : s.ports[p]? = some x) (hn : x.pend = none) (hl : s.life = .off ∨ s.life = .fatal) :
    exec (c.instr p) s = .next { s with ports := s.ports.set p { x with result := 0x02 } } := by
  refine exec_not_legal hx hn ?_
  rw [Bool.eq_false_iff, ne_eq, legal_live_iff hc]
  rcases hl with hl | hl <;> simp [hl]

/-! ### A CMD write while a command is pending -/

theorem exec_instr_dropped {pc : Pending} (hx : s.ports[p]? = some x) (hp : x.pend = some pc)
    (c : Command) : exec (c.instr p) s = .next s := by
  rw [exec_instr, onPort_some _ hx, issueCommand_dropped _ _ hx hp]

theorem illegalCommand_dropped {pc : Pending} (hx : s.ports[p]? = some x)
    (hp : x.pend = some pc) : illegalCommand p s = s := by
  simp only [illegalCommand, portOf_of_getElem? hx, hp]

theorem issueWord_dropped {pc : Pending} (hx : s.ports[p]? = some x) (hp : x.pend = some pc)
    (w : Word) : issueWord p w s = .next s := by
  cases hd : decode (.command p w) with
  | error r => rw [issueWord, hd, illegalCommand_dropped hx hp]
  | ok i =>
    obtain ⟨c, -, rfl⟩ := decode_command_ok hd
    rw [issueWord_ok hd, exec_instr_dropped hx hp]

/-! ### A port's own step -/

theorem clearPending_eq (hx : s.ports[p]? = some x) :
    clearPending p s = { s with ports := s.ports.set p { x with pend := none } } := by
  rw [clearPending, portOf_of_getElem? hx, setPort_eq]

theorem clearPending_getElem? (hx : s.ports[p]? = some x) :
    (clearPending p s).ports[p]? = some { x with pend := none } := by
  rw [clearPending_ports, portOf_of_getElem? hx,
    List.getElem?_set_self (List.getElem?_eq_some_iff.mp hx).1]

theorem portTurn_waits {pc : Pending} (hx : s.ports[p]? = some x) (hp : x.pend = some pc)
    (hw : waits pc.op s = true) : portTurn p s = s := by
  simp only [portTurn, portOf_of_getElem? hx, hp, hw, if_true]

theorem portTurn_runs {pc : Pending} (hx : s.ports[p]? = some x) (hp : x.pend = some pc)
    (hw : waits pc.op s = false) :
    portTurn p s = runCommand pc.op p pc.snap (clearPending p s) := by
  simp only [portTurn, portOf_of_getElem? hx, hp, hw, Bool.false_eq_true, if_false]

end OnPort

theorem waits_read_iff (s : State) : waits .read s = true ↔ s.inq = [] := by
  simp [waits]

/-- A lifecycle command waits for the engine to be idle (R106). -/
theorem waits_lifecycle_iff {c : Command}
    (hc : c = .init ∨ c = .enable ∨ c = .reset ∨ c = .close) (s : State) :
    waits c s = true ↔ s.engStep ≠ 0#4 := by
  rw [← busy_iff]
  rcases hc with rfl | rfl | rfl | rfl <;> rfl

theorem waits_clearPending (c : Command) (p : Nat) (s : State) :
    waits c (clearPending p s) = waits c s := by
  cases c <;> rfl

/-- READ with a packet waiting and the lifecycle commands read no operand of their snapshot, so run
late they do what they do when issued (R107). -/
theorem runCommand_snap_irrel {c : Command} {s : State}
    (h : (c = .read ∧ s.inq ≠ []) ∨ c = .init ∨ c = .enable ∨ c = .reset ∨ c = .close) (p : Nat)
    (o o' : Operands) : runCommand c p o s = runCommand c p o' s := by
  rcases h with ⟨rfl, hq⟩ | rfl | rfl | rfl | rfl
  · obtain ⟨pkt, rest, hcons⟩ := List.exists_cons_of_ne_nil hq
    simp only [runCommand, readBody, popIn, hcons]
  all_goals rfl

/-! ### The obligations -/

/-- Settles O15: the table, and the one effect of a command that is not legal. -/
theorem illegalInThisLifeIsErrState : Obligations.IllegalInThisLifeIsErrState :=
  ⟨legal_iff, fun _ _ _ _ => exec_not_legal⟩

/-- Settles O13: a word is a command or ILLEGAL, and both are dropped. -/
theorem commandWriteIsDroppedWhilePending : Obligations.CommandWriteIsDroppedWhilePending :=
  fun _ _ _ _ hx hp => ⟨issueWord_dropped hx hp, exec_instr_dropped hx hp⟩

/-- Settles O17: the port's step and `exec` at the cleared port run one body, on two snapshots that
the body does not read. -/
theorem pendingCommandRunsWhenItNoLongerWaits :
    Obligations.PendingCommandRunsWhenItNoLongerWaits := by
  intro s p x pc hx hp
  refine ⟨fun hready => ?_, fun hwaiting => portTurn_waits hx hp ?_⟩
  · have hw : waits pc.op s = false := by
      rw [Bool.eq_false_iff]
      rcases hready with ⟨hop, hq⟩ | ⟨hop, hidle⟩
      · rwa [hop, ne_eq, waits_read_iff]
      · rwa [ne_eq, waits_lifecycle_iff hop, not_not]
    have hnow : (legal pc.op (clearPending p s).life && waits pc.op (clearPending p s)) =
        false := by
      rw [waits_clearPending, hw, Bool.and_false]
    rw [← clearPending_eq hx, exec_instr_run (clearPending_getElem? hx) rfl hnow,
      portTurn_runs hx hp hw]
    exact congrArg _ (runCommand_snap_irrel (s := clearPending p s) (hready.imp_right And.left)
      p _ _)
  · rcases hwaiting with ⟨hop, hq⟩ | ⟨hop, hbusy⟩
    · rwa [hop, waits_read_iff]
    · rwa [waits_lifecycle_iff hop]

end Sys2Proof.Machine
end

section
/-! The command family's proofs, what each command does: INIT, ENABLE, RESET and CLOSE with the
engine idle, SEND and ENCODE by what Encode gives. -/

namespace Sys2Proof.Machine

open Sys2Proof Config

/-! ### Radio requests one after another -/

theorem openRadio_eq (s : State) :
    openRadio s = { s with rtrace := s.rtrace ++ [.notify, .opened, .listen] } := by
  simp [openRadio, logRadio]

theorem openRadio_logRadio_close (s : State) : openRadio (logRadio .close s) =
    { s with rtrace := s.rtrace ++ [.close, .notify, .opened, .listen] } := by
  simp [openRadio_eq, logRadio]

theorem askProbe_logRadio_config (s : State) : askProbe (logRadio (.config s.cfg) s) =
    draw probeKind radioProbe { s with rtrace := s.rtrace ++ [.config s.cfg, .probe] } := by
  simp [askProbe, logRadio]

/-! ### The bodies where they are legal -/

section Bodies

variable {s : State} (p : Nat) (snap : Operands)

/-- The answer to PROBE decides INIT (R109). -/
theorem initBody_off {ok : Bool} {t : State} (hl : s.life = .off)
    (hask : askProbe (logRadio (.config s.cfg) s) = (ok, t)) :
    initBody p snap s =
      if ok then setResult p .ok { t with outq := [], inq := [], life := .ready }
      else setResult p .fatalProbe (escalate t) := by
  simp only [initBody, (legal_init_iff _).mpr hl, if_true, hask]

theorem enableBody_live (hl : s.life = .ready ∨ s.life = .enabled) :
    enableBody p snap s = setResult p .ok
      { s with life := .enabled, rtrace := s.rtrace ++ [.notify, .opened, .listen] } := by
  rw [enableBody, if_pos ((legal_live_iff (by decide) _).mpr hl), openRadio_eq]

theorem resetBody_live (hl : s.life = .ready ∨ s.life = .enabled) :
    resetBody p snap s = setResult p .ok
      { s with life := .enabled, evtPend := false
               rtrace := s.rtrace ++ [.close, .notify, .opened, .listen] } := by
  rw [resetBody, if_pos ((legal_live_iff (by decide) _).mpr hl), openRadio_logRadio_close]

theorem closeBody_live (hl : s.life = .ready ∨ s.life = .enabled) :
    closeBody p snap s = setResult p .ok
      { s with life := .ready, evtPend := false, rtrace := s.rtrace ++ [.close] } := by
  rw [closeBody, if_pos ((legal_live_iff (by decide) _).mpr hl)]
  rfl

theorem sendBody_refused {c : ResultCode} (hl : s.life = .ready ∨ s.life = .enabled)
    (he : encodeFrame (frameOf snap) = .error c) : sendBody p snap s = setResult p c s := by
  rw [sendBody, if_pos ((legal_live_iff (by decide) _).mpr hl), he]

theorem sendBody_full {pkt : Packet} (hl : s.life = .ready ∨ s.life = .enabled)
    (he : encodeFrame (frameOf snap) = .ok pkt) (hfull : s.params.qcap ≤ s.outq.length) :
    sendBody p snap s = setResult p .errFull s := by
  rw [sendBody, if_pos ((legal_live_iff (by decide) _).mpr hl), he]
  simp only [pushOut_eq_none.mpr hfull]

theorem triggerRun_eq (s : State) :
    triggerRun s = { s with evtPend := if s.life = .enabled then true else s.evtPend } := by
  unfold triggerRun
  split <;> rfl

theorem sendBody_queued {pkt : Packet} (hl : s.life = .ready ∨ s.life = .enabled)
    (he : encodeFrame (frameOf snap) = .ok pkt) (hroom : s.outq.length < s.params.qcap) :
    sendBody p snap s = setResult p .ok
      { s with outq := s.outq ++ [pkt]
               evtPend := if s.life = .enabled then true else s.evtPend } := by
  rw [sendBody, if_pos ((legal_live_iff (by decide) _).mpr hl), he]
  simp only [pushOut, if_pos hroom, triggerRun_eq]

theorem encodeBody_refused {c : ResultCode} (he : encodeFrame (frameOf snap) = .error c) :
    encodeBody p snap s = setResult p c s := by
  rw [encodeBody, he]

theorem encodeBody_ok {pkt : Packet} {x : Port} (hx : s.ports[p]? = some x)
    (he : encodeFrame (frameOf snap) = .ok pkt) :
    encodeBody p snap s =
      setPort p { x with regs := setPacket x.regs pkt, result := codeOf .ok } s := by
  rw [encodeBody, he, portOf_of_getElem? hx]

end Bodies

/-! ### The commands issued on a port with nothing pending -/

section Issued

variable {s : State} {p : Nat} {x : Port}

/-- With the engine idle a lifecycle command runs at once (R106). -/
theorem exec_lifecycle_run {c : Command}
    (hc : c = .init ∨ c = .enable ∨ c = .reset ∨ c = .close) (hx : s.ports[p]? = some x)
    (hn : x.pend = none) (hidle : s.engStep = 0#4) :
    exec (c.instr p) s = .next (runCommand c p x.regs s) := by
  have hw : waits c s = false := by
    rwa [Bool.eq_false_iff, ne_eq, waits_lifecycle_iff hc, not_not]
  exact exec_instr_run hx hn (by rw [hw, Bool.and_false])

theorem exec_init_off {ok : Bool} {t : State} (hx : s.ports[p]? = some x) (hn : x.pend = none)
    (hl : s.life = .off) (hidle : s.engStep = 0#4)
    (hask : askProbe (logRadio (.config s.cfg) s) = (ok, t)) :
    exec (.init p) s = .next
      (if ok then setResult p .ok { t with outq := [], inq := [], life := .ready }
        else setResult p .fatalProbe (escalate t)) :=
  (exec_lifecycle_run (.inl rfl) hx hn hidle).trans
    (congrArg Host.Outcome.next (initBody_off p x.regs hl hask))

theorem exec_send_run (hx : s.ports[p]? = some x) (hn : x.pend = none) :
    exec (.send p) s = .next (sendBody p x.regs s) :=
  exec_instr_run (c := .send) hx hn (Bool.and_false _)

theorem exec_encode_run (hx : s.ports[p]? = some x) (hn : x.pend = none) :
    exec (.encode p) s = .next (encodeBody p x.regs s) :=
  exec_instr_run (c := .encode) hx hn (Bool.and_false _)

/-- Where a command's body comes to writing a result code, the next state is written out. -/
theorem next_setResult {o : Host.Outcome State Fault Refusal} {t u : State} {c : ResultCode}
    (ho : o = .next t) (ht : t = setResult p c u) (hu : u.ports[p]? = some x) :
    o = .next { u with ports := u.ports.set p { x with result := codeOf c } } := by
  rw [ho, ht, setResult_eq c hu]

end Issued

/-! ### The lifecycle commands -/

/-- Settles O18: the answer drawn decides; outside OFF INIT is not legal. -/
theorem initConfiguresAndProbes : Obligations.InitConfiguresAndProbes := by
  intro s p x hx hn
  refine ⟨fun hl hidle => ?_, fun hl => ?_⟩
  · obtain ⟨ok, a, d, hdraw⟩ :=
      draw_eq probeKind radioProbe { s with rtrace := s.rtrace ++ [.config s.cfg, .probe] }
    have hexec := exec_init_off hx hn hl hidle ((askProbe_logRadio_config s).trans hdraw)
    refine ⟨ok, _, a, d, rfl, hdraw, ?_, ?_⟩
    · rintro rfl
      exact next_setResult hexec (if_pos rfl) hx
    · rintro rfl
      exact next_setResult hexec (if_neg Bool.false_ne_true) hx
  · exact exec_not_legal (c := .init) hx hn
      (Bool.eq_false_iff.mpr fun h => hl ((legal_init_iff _).mp h))

/-- Settles O19: ENABLE runs at once, or is not legal. -/
theorem enableOpensTheRadio : Obligations.EnableOpensTheRadio :=
  fun _ p x hx hn =>
    ⟨fun hl hidle => next_setResult (exec_lifecycle_run (c := .enable) (by decide) hx hn hidle)
        (enableBody_live p x.regs hl) hx,
      exec_off_or_fatal (c := .enable) (by decide) hx hn⟩

/-- Settles O22: RESET runs at once, or is not legal. -/
theorem resetClosesAndEnables : Obligations.ResetClosesAndEnables :=
  fun _ p x hx hn =>
    ⟨fun hl hidle => next_setResult (exec_lifecycle_run (c := .reset) (by decide) hx hn hidle)
        (resetBody_live p x.regs hl) hx,
      exec_off_or_fatal (c := .reset) (by decide) hx hn⟩

/-- Settles O23: CLOSE runs at once, or is not legal. -/
theorem closeReleasesTheRadio : Obligations.CloseReleasesTheRadio :=
  fun _ p x hx hn =>
    ⟨fun hl hidle => next_setResult (exec_lifecycle_run (c := .close) (by decide) hx hn hidle)
        (closeBody_live p x.regs hl) hx,
      exec_off_or_fatal (c := .close) (by decide) hx hn⟩

/-! ### SEND and ENCODE -/

/-- Settles O20: the checks of Encode come before OUTQ's room. -/
theorem sendQueuesTheEncodedFrame : Obligations.SendQueuesTheEncodedFrame := by
  intro s p x hx hn
  have hexec := exec_send_run hx hn
  refine ⟨fun hl => ?_, exec_off_or_fatal (c := .send) (by decide) hx hn⟩
  obtain ⟨hbadDlc, hbadId, -⟩ := encodeRefusesOrGivesThePacket (frameOf x.regs)
  refine ⟨fun hdlc => ?_, fun hdlc hid => ?_, fun hdlc hid => ?_⟩
  · exact next_setResult hexec (sendBody_refused p _ hl (hbadDlc hdlc)) hx
  · exact next_setResult hexec (sendBody_refused p _ hl (hbadId hdlc hid)) hx
  · have henc := encodeFrame_of_valid ((validFrame_iff (frameOf x.regs)).mpr ⟨hdlc, hid⟩)
    exact ⟨fun hfull => next_setResult hexec (sendBody_full p _ hl henc hfull) hx,
      fun hroom => ⟨_, henc, next_setResult hexec (sendBody_queued p _ hl henc hroom) hx⟩⟩

/-- Settles O24: what Encode gives goes to the packet registers, a refusal to RESULT alone. -/
theorem encodeWritesThePacketRegisters : Obligations.EncodeWritesThePacketRegisters := by
  intro s p x hx hn
  have hexec := exec_encode_run hx hn
  refine ⟨fun pkt hok => ?_, fun c herr => ⟨codeOf c, encodeFrame_code herr, ?_⟩⟩
  · rw [hexec, encodeBody_ok p x.regs hx hok]
    rfl
  · exact next_setResult hexec (encodeBody_refused p x.regs herr) hx

end Sys2Proof.Machine
end

section
/-! The reset family's proof: RST's one step from any state, and what it leaves of the ports. -/

namespace Sys2Proof.Machine

open Sys2Proof

theorem blockReset_ports (s : State) :
    (blockReset s).ports = List.replicate s.ports.length Port.reset :=
  List.map_const' ..

theorem step_rst {s : State} (hi : (takeInput s).1 = .rst) :
    step s = .next (blockReset (takeInput s).2) := by
  rw [step_eq, hi, takeTurn]

/-- Settles O48: `blockReset` writes every element as a constant, the ports as that many reset
ports; the marker, the parameters and RTRACE rest on taking the input having changed none of them. -/
theorem rstResetsEveryElement : Obligations.RstResetsEveryElement := by
  intro s hi
  have hports : (blockReset (takeInput s).2).ports = List.replicate s.ports.length Port.reset := by
    rw [blockReset_ports, takeInput_ports]
  refine ⟨_, step_rst hi, rfl, rfl, rfl, rfl, rfl, rfl, rfl, rfl, rfl, rfl, ?ports, ?port,
    takeInput_rtrace s, ?etrace, takeInput_params s⟩
  case ports => rw [hports, List.length_replicate]
  case port =>
    intro x hx
    rw [hports] at hx
    rw [List.eq_of_mem_replicate hx]
    exact ⟨rfl, rfl, rfl⟩
  case etrace => exact congrArg (· ++ [.reset]) (takeInput_etrace s)

end Sys2Proof.Machine
end
